-- ==== Sys2Proof/Word.lean ====
section
/-!
DEFINITION. The word types of the block. Every value of the instruction set is unsigned (00_scope R23), so all of
these are plain bit vectors; `toNat` is the number the spec means.
-/
namespace Sys2Proof

/-- A byte: general registers, timers, memory cells, 8-bit immediates `NN` (10_state R31, R40; 30_encoding R101). -/
abbrev Byte := BitVec 8

/-- A 16-bit word: opcodes, `I`, `pc`, stack entries (10_state R34, R35, R36; 30_encoding R100). -/
abbrev Word := BitVec 16

/-- A 4-bit register selector `X` or `Y` (30_encoding R101); it names `x[0]` to `x[15]`, each legal. -/
abbrev RegIdx := BitVec 4

/-- The 4-bit row count `N` of DXYN (30_encoding R103). -/
abbrev Nibble := BitVec 4

/-- The 12-bit unsigned address immediate `NNN` (30_encoding R103). -/
abbrev Addr := BitVec 12

/-- The selector of `VF`, the flag register (10_state R32). -/
abbrev vf : RegIdx := 0xF#4

end Sys2Proof
end

