-- ==== Sys2Proof/Syntax.lean ====
section
/-!
DEFINITION. The instructions: one constructor per row of spec/opcode_table.json (30_encoding R105), 34 in all, with the
decode fields each row uses as its operands. Operand types are exactly as wide as the fields of 30_encoding R102, so
every term of this type is an instruction of the set. The operand forms of the assembler syntax (R111) follow.
-/
namespace Sys2Proof

/-- The 34 instructions (30_encoding R105), in the opcode table's order. -/
inductive Instr where
  /-- 00E0 `CLS` (41_display R170). -/
  | cls
  /-- 00EE `RET` (42_flow R180). -/
  | ret
  /-- 1NNN `JP NNN` (42_flow R181). -/
  | jp (nnn : Addr)
  /-- 2NNN `CALL NNN` (42_flow R182). -/
  | call (nnn : Addr)
  /-- 3XNN `SE Vx, NN` (43_skip R191). -/
  | seImm (x : RegIdx) (nn : Byte)
  /-- 4XNN `SNE Vx, NN` (43_skip R192). -/
  | sneImm (x : RegIdx) (nn : Byte)
  /-- 5XY0 `SE Vx, Vy` (43_skip R193). -/
  | seReg (x y : RegIdx)
  /-- 6XNN `LD Vx, NN` (44_alu R200). -/
  | ldImm (x : RegIdx) (nn : Byte)
  /-- 7XNN `ADD Vx, NN` (44_alu R201). -/
  | addImm (x : RegIdx) (nn : Byte)
  /-- 8XY0 `LD Vx, Vy` (44_alu R202). -/
  | ldReg (x y : RegIdx)
  /-- 8XY1 `OR Vx, Vy` (44_alu R203). -/
  | orReg (x y : RegIdx)
  /-- 8XY2 `AND Vx, Vy` (44_alu R204). -/
  | andReg (x y : RegIdx)
  /-- 8XY3 `XOR Vx, Vy` (44_alu R205). -/
  | xorReg (x y : RegIdx)
  /-- 8XY4 `ADD Vx, Vy` (44_alu R206). -/
  | addReg (x y : RegIdx)
  /-- 8XY5 `SUB Vx, Vy` (44_alu R207). -/
  | subReg (x y : RegIdx)
  /-- 8XY6 `SHR Vx`, any Y (44_alu R208). -/
  | shr (x : RegIdx)
  /-- 8XY7 `SUBN Vx, Vy` (44_alu R209). -/
  | subnReg (x y : RegIdx)
  /-- 8XYE `SHL Vx`, any Y (44_alu R210). -/
  | shl (x : RegIdx)
  /-- 9XY0 `SNE Vx, Vy` (43_skip R194). -/
  | sneReg (x y : RegIdx)
  /-- ANNN `LD I, NNN` (45_index_memory R220). -/
  | ldIdx (nnn : Addr)
  /-- BNNN `JP V0, NNN` (42_flow R183). -/
  | jpV0 (nnn : Addr)
  /-- CXNN `RND Vx, NN` (44_alu R211). -/
  | rnd (x : RegIdx) (nn : Byte)
  /-- DXYN `DRW Vx, Vy, N` (41_display R171). -/
  | drw (x y : RegIdx) (n : Nibble)
  /-- EX9E `SKP Vx` (43_skip R195). -/
  | skp (x : RegIdx)
  /-- EXA1 `SKNP Vx` (43_skip R196). -/
  | sknp (x : RegIdx)
  /-- FX07 `LD Vx, DT` (46_timers_keys R230). -/
  | ldFromDt (x : RegIdx)
  /-- FX0A `LD Vx, K` (46_timers_keys R233). -/
  | ldKey (x : RegIdx)
  /-- FX15 `LD DT, Vx` (46_timers_keys R231). -/
  | ldDt (x : RegIdx)
  /-- FX18 `LD ST, Vx` (46_timers_keys R232). -/
  | ldSt (x : RegIdx)
  /-- FX1E `ADD I, Vx` (45_index_memory R221). -/
  | addIdx (x : RegIdx)
  /-- FX29 `LD F, Vx` (45_index_memory R222). -/
  | ldFont (x : RegIdx)
  /-- FX33 `LD B, Vx` (45_index_memory R223). -/
  | ldBcd (x : RegIdx)
  /-- FX55 `LD [I], Vx` (45_index_memory R224). -/
  | stRegs (x : RegIdx)
  /-- FX65 `LD Vx, [I]` (45_index_memory R225). -/
  | ldRegs (x : RegIdx)
  deriving DecidableEq, Repr

/-- An operand as the assembler syntax of 30_encoding R111 writes it. The numbers are the assembler's, not yet checked
against the widths of the fields (R113; the checks are in WellFormed.lean). -/
inductive AsmOperand where
  /-- `V0` to `VF`: a register by number. -/
  | v (n : Nat)
  /-- `0x..`: a hexadecimal number (`NNN`, `NN` or `N`). -/
  | num (n : Nat)
  /-- `I`, the index register. -/
  | i
  /-- `[I]`, memory at the index register. -/
  | atI
  /-- `DT`, the delay timer. -/
  | dt
  /-- `ST`, the sound timer. -/
  | st
  /-- `K`, the keypad. -/
  | k
  /-- `F`, the font. -/
  | f
  /-- `B`, decimal digits. -/
  | b
  deriving DecidableEq, Repr

end Sys2Proof
end

