-- ==== Sys2Proof/WellFormed.lean ====
section
/-!
DEFINITION. Well-formedness of operands: the ranges 30_encoding R113 gives an assembler ("`0xNNN` must be at most 0xFFF,
`0xNN` at most 0xFF and `0xN` at most 0xF", registers V0 to VF), as checks on numbers, and the check of an instruction,
which applies them to its operands.
-/
namespace Sys2Proof

/-- A register number is 0 to 15 (10_state R31). -/
def WellFormed.reg (n : Nat) : Bool := n ≤ 0xF

/-- A 12-bit address (30_encoding R113). -/
def WellFormed.addr (n : Nat) : Bool := n ≤ 0xFFF

/-- An 8-bit immediate (30_encoding R113). -/
def WellFormed.byte (n : Nat) : Bool := n ≤ 0xFF

/-- A 4-bit count (30_encoding R113). -/
def WellFormed.count (n : Nat) : Bool := n ≤ 0xF

/-- An operand of the assembler syntax is well formed when its number fits some field of the instruction formats
(30_encoding R102); `assemble` checks the field the row really has. -/
def WellFormed.operand : AsmOperand → Bool
  | .v n => WellFormed.reg n
  | .num n => WellFormed.addr n
  | .i | .atI | .dt | .st | .k | .f | .b => true

/-- Every operand of the instruction is in the range of its field. The operand types have exactly the fields' widths,
so this holds of every instruction (`Instr.wellFormed_all`). -/
def Instr.wellFormed : Instr → Bool
  | .cls | .ret => true
  | .jp nnn | .call nnn | .ldIdx nnn | .jpV0 nnn => WellFormed.addr nnn.toNat
  | .seImm x nn | .sneImm x nn | .ldImm x nn | .addImm x nn | .rnd x nn =>
    WellFormed.reg x.toNat && WellFormed.byte nn.toNat
  | .seReg x y | .ldReg x y | .orReg x y | .andReg x y | .xorReg x y | .addReg x y | .subReg x y | .subnReg x y
  | .sneReg x y => WellFormed.reg x.toNat && WellFormed.reg y.toNat
  | .drw x y n => WellFormed.reg x.toNat && WellFormed.reg y.toNat && WellFormed.count n.toNat
  | .shr x | .shl x | .skp x | .sknp x | .ldFromDt x | .ldKey x | .ldDt x | .ldSt x | .addIdx x | .ldFont x
  | .ldBcd x | .stRegs x | .ldRegs x => WellFormed.reg x.toNat

end Sys2Proof
end

