-- ==== Sys2Proof/Decode.lean ====
section
/-!
DEFINITION. Decoding and encoding (30_encoding R100 to R113): the decode fields of an opcode, the two-level dispatch,
the decoder on bytes, the encoder, and the opcode table's masks and matches as data. Decoding is total and strict: an
opcode that matches no row is rejected as unknown, by name (R106).
-/
namespace Sys2Proof

/-! ### The fields of an opcode (30_encoding R101) -/

/-- `H`, bits 15:12, the family. -/
def opH (w : Word) : BitVec 4 := w.extractLsb' 12 4

/-- `X`, bits 11:8. -/
def opX (w : Word) : RegIdx := w.extractLsb' 8 4

/-- `Y`, bits 7:4. -/
def opY (w : Word) : RegIdx := w.extractLsb' 4 4

/-- `N`, bits 3:0. -/
def opN (w : Word) : Nibble := w.extractLsb' 0 4

/-- `NN`, bits 7:0. -/
def opNN (w : Word) : Byte := w.extractLsb' 0 8

/-- `NNN`, bits 11:0. -/
def opNNN (w : Word) : Addr := w.extractLsb' 0 12

/-! ### Dispatch (30_encoding R104) -/

/-- Level two of family 0: the whole opcode (30_encoding R104). -/
def decodeFamily0 (w : Word) : Option Instr :=
  if w = 0x00E0#16 then some .cls else if w = 0x00EE#16 then some .ret else none

/-- Level two of family 8: the low nibble (30_encoding R104). -/
def decodeFamily8 (w : Word) : Option Instr :=
  match opN w with
  | 0x0#4 => some (.ldReg (opX w) (opY w))
  | 0x1#4 => some (.orReg (opX w) (opY w))
  | 0x2#4 => some (.andReg (opX w) (opY w))
  | 0x3#4 => some (.xorReg (opX w) (opY w))
  | 0x4#4 => some (.addReg (opX w) (opY w))
  | 0x5#4 => some (.subReg (opX w) (opY w))
  | 0x6#4 => some (.shr (opX w))
  | 0x7#4 => some (.subnReg (opX w) (opY w))
  | 0xE#4 => some (.shl (opX w))
  | _ => none

/-- Level two of family E: the low byte (30_encoding R104). -/
def decodeFamilyE (w : Word) : Option Instr :=
  match opNN w with
  | 0x9E#8 => some (.skp (opX w))
  | 0xA1#8 => some (.sknp (opX w))
  | _ => none

/-- Level two of family F: the low byte (30_encoding R104). -/
def decodeFamilyF (w : Word) : Option Instr :=
  match opNN w with
  | 0x07#8 => some (.ldFromDt (opX w))
  | 0x0A#8 => some (.ldKey (opX w))
  | 0x15#8 => some (.ldDt (opX w))
  | 0x18#8 => some (.ldSt (opX w))
  | 0x1E#8 => some (.addIdx (opX w))
  | 0x29#8 => some (.ldFont (opX w))
  | 0x33#8 => some (.ldBcd (opX w))
  | 0x55#8 => some (.stRegs (opX w))
  | 0x65#8 => some (.ldRegs (opX w))
  | _ => none

/-- The dispatch multiplexer (30_encoding R104): level one on `H`, level two where the family has one. `none` is the
unrecognised fallback (R106). It reads nothing but the opcode (40_cycle R143). The sixteen values of `H` all have a line;
the last one is there for the form of a match. -/
def decodeOp (w : Word) : Option Instr :=
  match opH w with
  | 0x0#4 => decodeFamily0 w
  | 0x1#4 => some (.jp (opNNN w))
  | 0x2#4 => some (.call (opNNN w))
  | 0x3#4 => some (.seImm (opX w) (opNN w))
  | 0x4#4 => some (.sneImm (opX w) (opNN w))
  | 0x5#4 => if opN w = 0x0#4 then some (.seReg (opX w) (opY w)) else none
  | 0x6#4 => some (.ldImm (opX w) (opNN w))
  | 0x7#4 => some (.addImm (opX w) (opNN w))
  | 0x8#4 => decodeFamily8 w
  | 0x9#4 => if opN w = 0x0#4 then some (.sneReg (opX w) (opY w)) else none
  | 0xA#4 => some (.ldIdx (opNNN w))
  | 0xB#4 => some (.jpV0 (opNNN w))
  | 0xC#4 => some (.rnd (opX w) (opNN w))
  | 0xD#4 => some (.drw (opX w) (opY w) (opN w))
  | 0xE#4 => decodeFamilyE w
  | 0xF#4 => decodeFamilyF w
  | _ => none

/-! ### Decoding bytes -/

/-- Why the decoder gives no instruction. -/
inductive DecodeError where
  /-- The opcode matches no row of the table (30_encoding R106). -/
  | unknownOpcode (w : Word)
  /-- Fewer than the two bytes of an instruction (30_encoding R100). -/
  | truncated
  deriving DecidableEq, Repr

/-- The 16-bit opcode of two bytes in address order, big-endian: the byte at the lower address is bits 15:8
(20_memory R74). -/
def opcodeOf (hi lo : Byte) : Word := hi ++ lo

/-- Decode the instruction at the head of a list of bytes, with the bytes after it: two bytes, always
(30_encoding R100). -/
def decode : List Byte → Except DecodeError (Instr × List Byte)
  | hi :: lo :: rest =>
    match decodeOp (opcodeOf hi lo) with
    | some i => .ok (i, rest)
    | none => .error (.unknownOpcode (opcodeOf hi lo))
  | _ => .error .truncated

/-! ### Encoding (30_encoding R102, R113) -/

/-- The opcode of an instruction: each operand placed in its field of the row's format. `Y` is 0 in 8XY6 and 8XYE, which
do not read it (30_encoding R111). -/
def encodeWord : Instr → Word
  | .cls => 0x00E0#16
  | .ret => 0x00EE#16
  | .jp nnn => 0x1#4 ++ nnn
  | .call nnn => 0x2#4 ++ nnn
  | .seImm x nn => 0x3#4 ++ x ++ nn
  | .sneImm x nn => 0x4#4 ++ x ++ nn
  | .seReg x y => 0x5#4 ++ x ++ y ++ 0x0#4
  | .ldImm x nn => 0x6#4 ++ x ++ nn
  | .addImm x nn => 0x7#4 ++ x ++ nn
  | .ldReg x y => 0x8#4 ++ x ++ y ++ 0x0#4
  | .orReg x y => 0x8#4 ++ x ++ y ++ 0x1#4
  | .andReg x y => 0x8#4 ++ x ++ y ++ 0x2#4
  | .xorReg x y => 0x8#4 ++ x ++ y ++ 0x3#4
  | .addReg x y => 0x8#4 ++ x ++ y ++ 0x4#4
  | .subReg x y => 0x8#4 ++ x ++ y ++ 0x5#4
  | .shr x => 0x8#4 ++ x ++ 0x0#4 ++ 0x6#4
  | .subnReg x y => 0x8#4 ++ x ++ y ++ 0x7#4
  | .shl x => 0x8#4 ++ x ++ 0x0#4 ++ 0xE#4
  | .sneReg x y => 0x9#4 ++ x ++ y ++ 0x0#4
  | .ldIdx nnn => 0xA#4 ++ nnn
  | .jpV0 nnn => 0xB#4 ++ nnn
  | .rnd x nn => 0xC#4 ++ x ++ nn
  | .drw x y n => 0xD#4 ++ x ++ y ++ n
  | .skp x => 0xE#4 ++ x ++ 0x9E#8
  | .sknp x => 0xE#4 ++ x ++ 0xA1#8
  | .ldFromDt x => 0xF#4 ++ x ++ 0x07#8
  | .ldKey x => 0xF#4 ++ x ++ 0x0A#8
  | .ldDt x => 0xF#4 ++ x ++ 0x15#8
  | .ldSt x => 0xF#4 ++ x ++ 0x18#8
  | .addIdx x => 0xF#4 ++ x ++ 0x1E#8
  | .ldFont x => 0xF#4 ++ x ++ 0x29#8
  | .ldBcd x => 0xF#4 ++ x ++ 0x33#8
  | .stRegs x => 0xF#4 ++ x ++ 0x55#8
  | .ldRegs x => 0xF#4 ++ x ++ 0x65#8

/-- The bytes of an opcode in address order, high byte first (20_memory R74). -/
def bytesOf (w : Word) : List Byte := [w.extractLsb' 8 8, w.extractLsb' 0 8]

/-- The bytes of an instruction as they stand in memory. -/
def encode (i : Instr) : List Byte := bytesOf (encodeWord i)

/-! ### The opcode table's masks and matches -/

/-- A row of spec/opcode_table.json: an opcode `w` is the row's when `w &&& mask = pattern`. -/
structure OpRow where
  mask : Word
  pattern : Word
  deriving DecidableEq, Repr

/-- Whether an opcode lies in a row. -/
def OpRow.holds (r : OpRow) (w : Word) : Bool := w &&& r.mask == r.pattern

/-- The row of spec/opcode_table.json an instruction belongs to. -/
def rowOf : Instr → OpRow
  | .cls => ⟨0xFFFF#16, 0x00E0#16⟩
  | .ret => ⟨0xFFFF#16, 0x00EE#16⟩
  | .jp _ => ⟨0xF000#16, 0x1000#16⟩
  | .call _ => ⟨0xF000#16, 0x2000#16⟩
  | .seImm _ _ => ⟨0xF000#16, 0x3000#16⟩
  | .sneImm _ _ => ⟨0xF000#16, 0x4000#16⟩
  | .seReg _ _ => ⟨0xF00F#16, 0x5000#16⟩
  | .ldImm _ _ => ⟨0xF000#16, 0x6000#16⟩
  | .addImm _ _ => ⟨0xF000#16, 0x7000#16⟩
  | .ldReg _ _ => ⟨0xF00F#16, 0x8000#16⟩
  | .orReg _ _ => ⟨0xF00F#16, 0x8001#16⟩
  | .andReg _ _ => ⟨0xF00F#16, 0x8002#16⟩
  | .xorReg _ _ => ⟨0xF00F#16, 0x8003#16⟩
  | .addReg _ _ => ⟨0xF00F#16, 0x8004#16⟩
  | .subReg _ _ => ⟨0xF00F#16, 0x8005#16⟩
  | .shr _ => ⟨0xF00F#16, 0x8006#16⟩
  | .subnReg _ _ => ⟨0xF00F#16, 0x8007#16⟩
  | .shl _ => ⟨0xF00F#16, 0x800E#16⟩
  | .sneReg _ _ => ⟨0xF00F#16, 0x9000#16⟩
  | .ldIdx _ => ⟨0xF000#16, 0xA000#16⟩
  | .jpV0 _ => ⟨0xF000#16, 0xB000#16⟩
  | .rnd _ _ => ⟨0xF000#16, 0xC000#16⟩
  | .drw _ _ _ => ⟨0xF000#16, 0xD000#16⟩
  | .skp _ => ⟨0xF0FF#16, 0xE09E#16⟩
  | .sknp _ => ⟨0xF0FF#16, 0xE0A1#16⟩
  | .ldFromDt _ => ⟨0xF0FF#16, 0xF007#16⟩
  | .ldKey _ => ⟨0xF0FF#16, 0xF00A#16⟩
  | .ldDt _ => ⟨0xF0FF#16, 0xF015#16⟩
  | .ldSt _ => ⟨0xF0FF#16, 0xF018#16⟩
  | .addIdx _ => ⟨0xF0FF#16, 0xF01E#16⟩
  | .ldFont _ => ⟨0xF0FF#16, 0xF029#16⟩
  | .ldBcd _ => ⟨0xF0FF#16, 0xF033#16⟩
  | .stRegs _ => ⟨0xF0FF#16, 0xF055#16⟩
  | .ldRegs _ => ⟨0xF0FF#16, 0xF065#16⟩

/-- The rows of spec/opcode_table.json in the table's order: one for each constructor. -/
def opcodeTable : List OpRow :=
  [rowOf .cls, rowOf .ret, rowOf (.jp 0), rowOf (.call 0), rowOf (.seImm 0 0), rowOf (.sneImm 0 0),
   rowOf (.seReg 0 0), rowOf (.ldImm 0 0), rowOf (.addImm 0 0), rowOf (.ldReg 0 0), rowOf (.orReg 0 0),
   rowOf (.andReg 0 0)] ++
  [rowOf (.xorReg 0 0), rowOf (.addReg 0 0), rowOf (.subReg 0 0), rowOf (.shr 0), rowOf (.subnReg 0 0),
   rowOf (.shl 0), rowOf (.sneReg 0 0), rowOf (.ldIdx 0), rowOf (.jpV0 0), rowOf (.rnd 0 0), rowOf (.drw 0 0 0)] ++
  [rowOf (.skp 0), rowOf (.sknp 0), rowOf (.ldFromDt 0), rowOf (.ldKey 0), rowOf (.ldDt 0), rowOf (.ldSt 0),
   rowOf (.addIdx 0), rowOf (.ldFont 0), rowOf (.ldBcd 0), rowOf (.stRegs 0), rowOf (.ldRegs 0)]

/-! ### The host's numbering of the table -/

/-- The bytes of an instruction whose bits are `w`, numbered as spec/opcode_table.json numbers them (bit 0 the least
significant of the one 16-bit word), of which the table gives `nbits`; the bits above are 0. Laid out in address order,
high byte first. -/
def tableBytes (nbits w : Nat) : List Byte := bytesOf (BitVec.ofNat 16 (w % 2 ^ nbits))

/-- The instruction the decoder reads from an instruction whose bits are `w`. -/
def decodeTableWord (nbits w : Nat) : Option Instr :=
  match decode (tableBytes nbits w) with
  | .ok (i, _) => some i
  | .error _ => none

end Sys2Proof
end

