-- ==== Sys2Proof/Config.lean ====
section
/-!
DEFINITION. What is fixed for the machine: the sizes of 00_scope section 3, the block's named parameters with their
defaults (FONT_BASE, PROGRAM_START, FONT_TABLE, FAIL_PC_POLICY), and the one free value of the spec, the random input
byte.
-/
namespace Sys2Proof

/-- `MEM_SIZE`: the address space is 0x000 to 0xFFF (00_scope R9). -/
abbrev Config.memSize : Nat := 4096

/-- `STACK_DEPTH` (00_scope R11). -/
abbrev Config.stackDepth : Nat := 16

/-- `FB_W` (00_scope R12). -/
abbrev Config.fbWidth : Nat := 64

/-- `FB_H` (00_scope R12). -/
abbrev Config.fbHeight : Nat := 32

/-- `NUM_KEYS` (00_scope R13). -/
abbrev Config.numKeys : Nat := 16

/-- The default of `FONT_BASE` (00_scope R16). -/
def Config.fontBase : Nat := 0x050

/-- The default of `PROGRAM_START` (00_scope R17). -/
def Config.programStart : Nat := 0x200

/-- Bytes of one glyph, and of the whole font: 16 glyphs of 5 bytes (00_scope R18). -/
abbrev Config.glyphSize : Nat := 5
abbrev Config.fontSize : Nat := 80

/-- Glyphs 0 to 7 of the default FONT_TABLE (00_scope R18), row 0 first. -/
def Config.fontLow : List Byte :=
  [0xF0#8, 0x90#8, 0x90#8, 0x90#8, 0xF0#8] ++ [0x20#8, 0x60#8, 0x20#8, 0x20#8, 0x70#8] ++
  [0xF0#8, 0x10#8, 0xF0#8, 0x80#8, 0xF0#8] ++ [0xF0#8, 0x10#8, 0xF0#8, 0x10#8, 0xF0#8] ++
  [0x90#8, 0x90#8, 0xF0#8, 0x10#8, 0x10#8] ++ [0xF0#8, 0x80#8, 0xF0#8, 0x10#8, 0xF0#8] ++
  [0xF0#8, 0x80#8, 0xF0#8, 0x90#8, 0xF0#8] ++ [0xF0#8, 0x10#8, 0x20#8, 0x40#8, 0x40#8]

/-- Glyphs 8 to F of the default FONT_TABLE (00_scope R18). -/
def Config.fontHigh : List Byte :=
  [0xF0#8, 0x90#8, 0xF0#8, 0x90#8, 0xF0#8] ++ [0xF0#8, 0x90#8, 0xF0#8, 0x10#8, 0xF0#8] ++
  [0xF0#8, 0x90#8, 0xF0#8, 0x90#8, 0x90#8] ++ [0xE0#8, 0x90#8, 0xE0#8, 0x90#8, 0xE0#8] ++
  [0xF0#8, 0x80#8, 0x80#8, 0x80#8, 0xF0#8] ++ [0xE0#8, 0x90#8, 0x90#8, 0x90#8, 0xE0#8] ++
  [0xF0#8, 0x80#8, 0xF0#8, 0x80#8, 0xF0#8] ++ [0xF0#8, 0x80#8, 0xF0#8, 0x80#8, 0x80#8]

/-- The default of `FONT_TABLE` (00_scope R18; the spec takes its bytes from general knowledge, G1; log 3). -/
def Config.fontTable : List Byte := Config.fontLow ++ Config.fontHigh

/-- The values of the parameter FAIL_PC_POLICY (00_scope R19): where the pc is after an instruction fails its own
check. -/
inductive FailPcPolicy where
  /-- The pc keeps the post-fetch value (the default). -/
  | advance
  /-- The pc is set back to the failing instruction's address. -/
  | hold
  deriving DecidableEq, Repr

/-- The named parameters of the block (00_scope R16 to R19): constants of one machine, any values of theirs a machine of
this block. They are the argument a model takes (93_implementation_defined items 7, 8, 9) and stand in `State.params`,
so a statement about every state covers every value of them (logs 4, 5). -/
structure Params where
  /-- `FONT_BASE`, at most 0x1B0 so that the font lies in 0x000 to 0x1FF (00_scope R16). -/
  fontBase : Fin 0x1B1
  /-- `PROGRAM_START`, an address of memory (00_scope R17; log 4). -/
  programStart : Addr
  /-- `FONT_TABLE`, 16 glyphs of 5 bytes (00_scope R18). -/
  fontTable : Vector Byte 80
  /-- `FAIL_PC_POLICY` (00_scope R19). -/
  failPc : FailPcPolicy
  deriving DecidableEq, Repr

/-- The defaults of the parameters (00_scope R16 to R19). -/
def Params.default : Params where
  fontBase := ⟨Config.fontBase, by decide⟩
  programStart := BitVec.ofNat 12 Config.programStart
  fontTable := ⟨Config.fontTable.toArray, rfl⟩
  failPc := .advance

/-- FREE VALUE: `rand_byte`, the random input byte of cycle number `n` (00_scope R20, 10_state R47). It has no body, so
nothing constrains it. Log 2. -/
opaque Config.randByte (n : Nat) : Byte

end Sys2Proof
end

