-- ==== Sys2Proof/Machine/State.lean ====
section
/-!
DEFINITION. The state of the block, as plain data: the eleven items of 10_state R30, then the fields of the model's
own (the block's named parameters, the outputs of a cycle and their trace, the index of the random input); the
diagnostics; the faults and refusals; and the state after reset.
-/
namespace Sys2Proof.Machine

/-- Memory as the bytes that differ from what power-on puts there under the default parameters: addresses strictly
rising, no entry equal to what an unlisted address reads as (`Memory.wf` in Ops.lean; log 8). -/
abbrev Memory := List Host.Cell

/-- The framebuffer (10_state R39): 32 rows, top row first, of 64 one-bit pixels; the pixel in column `x` of a row is
the row's bit `x` (log 15). -/
abbrev FrameBuf := Vector (BitVec 64) 32

/-- A diagnostic record (60_exceptions R241, R242), one constructor per code but NONE. `pcOf` is the address of the
instruction, `opcode` the opcode it was fetched as. -/
inductive Diag where
  /-- 1 UNKNOWN_OPCODE: the opcode matches no row (30_encoding R106). -/
  | unknownOpcode (pcOf opcode : Word)
  /-- 2 STACK_OVERFLOW: CALL with `SP = 16` (42_flow R182). -/
  | stackOverflow (pcOf opcode : Word)
  /-- 3 STACK_UNDERFLOW: RET with `SP = 0` (42_flow R180). -/
  | stackUnderflow (pcOf opcode : Word)
  /-- 4 FETCH_OOB: fetch with `pc >= 0xFFF`; `pcOf` is that pc (40_cycle R142). -/
  | fetchOob (pcOf : Word)
  /-- 5 MEM_OOB: data range beyond 0xFFF; `addr` is the lowest out-of-range address (20_memory R77). -/
  | memOob (pcOf opcode : Word) (addr : Nat)
  /-- 6 KEY_RANGE: key index 16 or more; `key` is the index (43_skip R197). -/
  | keyRange (pcOf opcode : Word) (key : Byte)
  deriving DecidableEq, Repr

/-- The outputs of one cycle (10_state R50): the diagnostic (`none` is NONE) and the tone request. -/
structure CycleOutput where
  diag : Option Diag
  tone : Bool
  deriving DecidableEq, Repr

/-- The state of the block. -/
structure State where
  /-- `x[0]` to `x[15]`, the general registers V0 to VF (10_state R31). -/
  v : Vector Byte 16
  /-- `I`, the index register (10_state R34). -/
  idx : Word
  /-- The program counter (10_state R35). -/
  pc : Word
  /-- `S[0]` to `S[15]`, the return addresses (10_state R36). -/
  stack : Vector Word 16
  /-- `SP`, the number of entries on the stack, 0 to 16 (10_state R37). -/
  sp : Fin 17
  /-- `DT`, the delay timer (10_state R40). -/
  dt : Byte
  /-- `ST`, the sound timer (10_state R40). -/
  st : Byte
  /-- `K[0]` to `K[15]`, true = pressed (10_state R38). -/
  keys : Vector Bool 16
  /-- `FB` (10_state R39). -/
  fb : FrameBuf
  /-- `M` (10_state R41). -/
  mem : Memory
  /-- `P`, the retained program (10_state R42). -/
  prog : List Byte
  /-- The machine's parameters FONT_BASE, PROGRAM_START, FONT_TABLE and FAIL_PC_POLICY (00_scope R16 to R19), the model's
  own field: no operation writes it. Logs 4 and 5. -/
  params : Params
  /-- The `diag` output of the cycle in progress, or of the last one (10_state R46), the model's own field. Log 6. -/
  diag : Option Diag
  /-- The `tone` output of the last cycle (10_state R45), the model's own field. Log 6. -/
  tone : Bool
  /-- The outputs of all cycles, newest first: the trace 10_state R46 asks a model for. Log 6. -/
  trace : List CycleOutput
  /-- How many cycles have run: the index of the free `rand_byte` of the cycle in progress, the model's own field.
  Log 7. -/
  cycleNo : Nat
  deriving DecidableEq, Repr

/-- The faults: none. "The core never traps, never vectors to a handler and never stops" (60_exceptions R240): every
failure the spec describes is a diagnostic and a next state. So there is nothing for a constructor to name, and no step
can end in a fault (log 16). -/
inductive Fault where
  deriving DecidableEq, Repr

/-- The refusals. No instruction of this block is refused: every row of the opcode table has its meaning. -/
inductive Refusal where
  /-- An arm of `exec` whose instruction has no meaning yet; safe, since nothing can be proved of a next state. No arm
  raises it. -/
  | notModelled (mnemonic : String)
  deriving DecidableEq, Repr

/-- The machine of the default parameters right after power-on (70_reset R275: `P` empty, then the reset of R270), every
item at the value of 10_state R49. Nothing is listed in memory: an unlisted address reads as its contents in this state.
The model's own fields: the default parameters (00_scope R16 to R19), no output reported yet, no cycle run yet (DESIGN
CHOICE, logs 4 to 7). `State.powerOn` is this state under any parameters. -/
def State.reset : State where
  v := Vector.replicate 16 0#8
  idx := 0#16
  pc := BitVec.ofNat 16 Config.programStart
  stack := Vector.replicate 16 0#16
  sp := 0
  dt := 0#8
  st := 0#8
  keys := Vector.replicate 16 false
  fb := Vector.replicate 32 0#64
  mem := []
  prog := []
  params := Params.default
  diag := none
  tone := false
  trace := []
  cycleNo := 0

end Sys2Proof.Machine
end

