-- ==== Sys2Proof/Machine/Ops.lean ====
section
/-!
DEFINITION. The named operations over memory, registers, stack, keypad, framebuffer, diagnostics and the cycle. The
meanings are written over these. Each follows the rule of spec/ its docstring names.
-/
namespace Sys2Proof.Machine

/-! ### Memory (20_memory) -/

/-- What an address that memory does not list reads as: its contents after power-on under the default parameters, that is
the default font at 0x050 and 0 elsewhere (10_state R49). Under other parameters reset lists what differs (`resetMemory`;
log 8). -/
def Memory.unlisted (a : Nat) : Byte :=
  if Config.fontBase ≤ a ∧ a < Config.fontBase + Config.fontSize then
    Config.fontTable.getD (a - Config.fontBase) 0#8
  else 0#8

/-- `MemRead(a, 1)`: the byte `M[a]` (00_scope R25). -/
def Memory.read (m : Memory) (a : Nat) : Byte :=
  match m with
  | [] => Memory.unlisted a
  | (b, v) :: rest => if a = b then v else Memory.read rest a

/-- List a byte at an address, keeping the addresses rising. -/
def Memory.put (m : Memory) (a : Nat) (v : Byte) : Memory :=
  match m with
  | [] => [(a, v)]
  | (b, w) :: rest =>
    if a < b then (a, v) :: (b, w) :: rest
    else if a = b then (a, v) :: rest
    else (b, w) :: Memory.put rest a v

/-- Take an address off the list, so that it reads as unlisted. -/
def Memory.drop (m : Memory) (a : Nat) : Memory := m.filter fun c => c.1 != a

/-- `MemWrite(a, 1, v)`: `M[a] <- v` (00_scope R25), keeping the canonical form. There is no byte at or above 0x1000,
and no rule writes one (R25); the operation then changes nothing (log 9). -/
def Memory.write (m : Memory) (a : Nat) (v : Byte) : Memory :=
  if a < Config.memSize then
    if v = Memory.unlisted a then Memory.drop m a else Memory.put m a v
  else m

/-- Write bytes to `a`, `a + 1`, ... The addresses are distinct, so the order of the writes cannot be observed
(20_memory R75). -/
def Memory.writeBytes (m : Memory) (a : Nat) : List Byte → Memory
  | [] => m
  | b :: bs => Memory.write (Memory.writeBytes m (a + 1) bs) a b

/-- The `n` bytes at `a`, `a + 1`, ... -/
def Memory.readBytes (m : Memory) (a n : Nat) : List Byte := (List.range n).map fun k => m.read (a + k)

/-- Memory with every byte 0: "zeroes memory" (70_reset R270, step 1). -/
def Memory.zeroed : Memory := Memory.writeBytes [] Config.fontBase (List.replicate Config.fontSize 0#8)

/-- The memory the reset procedure leaves, steps 1 to 3 of 70_reset R270 in their order: every byte 0, then the font at
FONT_BASE, then the program bytes from PROGRAM_START. -/
def resetMemory (p : Params) (programBytes : List Byte) : Memory :=
  Memory.writeBytes (Memory.writeBytes Memory.zeroed p.fontBase.val p.fontTable.toList) p.programStart.toNat programBytes

/-- The canonical form: addresses strictly rising and below 0x1000, no entry equal to what its address reads as when
unlisted. -/
def Memory.wf : Memory → Bool
  | [] => true
  | (a, v) :: rest =>
    decide (a < Config.memSize) && v != Memory.unlisted a && rest.all (fun c => decide (a < c.1)) && Memory.wf rest

/-! ### Registers (10_state R31 to R40) -/

/-- `x[r]`. None is hardwired (10_state R31). -/
def State.reg (s : State) (r : RegIdx) : Byte := s.v[r.toNat]'r.isLt

/-- `x[r] <- b`. -/
def State.setReg (s : State) (r : RegIdx) (b : Byte) : State := { s with v := s.v.set r.toNat b r.isLt }

/-- `x[k] <- bytes[k]` for each `k` below the list's length, starting at register `k`, in ascending order. -/
def setRegsFrom (v : Vector Byte 16) (k : Nat) : List Byte → Vector Byte 16
  | [] => v
  | b :: bs => setRegsFrom (v.setIfInBounds k b) (k + 1) bs

/-- `x[0]` to `x[n-1]` from a list of bytes. -/
def State.setRegs (s : State) (bytes : List Byte) : State := { s with v := setRegsFrom s.v 0 bytes }

/-- `x[0]` to `x[r]`, in order. -/
def State.regsUpTo (s : State) (r : RegIdx) : List Byte := s.v.toList.take (r.toNat + 1)

/-- `I <- w`. -/
def State.setIdx (s : State) (w : Word) : State := { s with idx := w }

/-- `pc <- w`. -/
def State.setPc (s : State) (w : Word) : State := { s with pc := w }

/-- `DT <- b`. -/
def State.setDt (s : State) (b : Byte) : State := { s with dt := b }

/-- `ST <- b`. -/
def State.setSt (s : State) (b : Byte) : State := { s with st := b }

/-- Replace the framebuffer. -/
def State.setFb (s : State) (f : FrameBuf) : State := { s with fb := f }

/-- Replace memory. -/
def State.setMem (s : State) (m : Memory) : State := { s with mem := m }

/-- A skip, on the post-fetch pc (43_skip R190), when the condition holds. -/
def State.skipIf (s : State) (c : Bool) : State := if c then s.setPc (s.pc + 2#16) else s

/-! ### Diagnostics: the block's only exceptions (00_scope R26, 60_exceptions R240 to R249) -/

/-- The code of a diagnostic (60_exceptions R241). -/
def Diag.code : Diag → Nat
  | .unknownOpcode _ _ => 1
  | .stackOverflow _ _ => 2
  | .stackUnderflow _ _ => 3
  | .fetchOob _ => 4
  | .memOob _ _ _ => 5
  | .keyRange _ _ _ => 6

/-- The code of a cycle's `diag` output: 0 is NONE (60_exceptions R241). -/
def diagCode : Option Diag → Nat
  | none => 0
  | some d => d.code

/-- `pc_of_instruction` of the record (60_exceptions R242). -/
def Diag.address : Diag → Word
  | .unknownOpcode p _ | .stackOverflow p _ | .stackUnderflow p _ | .fetchOob p | .memOob p _ _ | .keyRange p _ _ => p

/-- `opcode` of the record, absent for FETCH_OOB (60_exceptions R242). -/
def Diag.opcode : Diag → Option Word
  | .unknownOpcode _ w | .stackOverflow _ w | .stackUnderflow _ w | .memOob _ w _ | .keyRange _ w _ => some w
  | .fetchOob _ => none

/-- `extra` of the record: the lowest out-of-range address of MEM_OOB, the index of KEY_RANGE, else absent
(60_exceptions R242). -/
def Diag.extra : Diag → Option Nat
  | .memOob _ _ a => some a
  | .keyRange _ _ k => some k.toNat
  | .unknownOpcode _ _ | .stackOverflow _ _ | .stackUnderflow _ _ | .fetchOob _ => none

/-- Set the cycle's `diag` output. -/
def State.setDiag (s : State) (d : Diag) : State := { s with diag := some d }

/-- The address of the instruction being executed, from the post-fetch pc (40_cycle R146). -/
def State.instrAddr (s : State) : Word := s.pc - 2#16

/-- The pc after an instruction failed its own check (60_exceptions R243): the post-fetch value under `advance`, the
instruction's address under `hold`. -/
def State.failedPc (s : State) : Word :=
  match s.params.failPc with
  | .advance => s.pc
  | .hold => s.instrAddr

/-- `raise Diag(...)` of an instruction's own check (00_scope R26, 60_exceptions R243): the diagnostic is reported, no
other write happens, and the pc is set by FAIL_PC_POLICY. This is all there is of taking an exception: no state is
saved, no mode changes, control goes to no vector (R248), and there is no return from one (R249). -/
def State.raise (s : State) (d : Diag) : State := (s.setDiag d).setPc s.failedPc

/-- `report Diag(...)` (00_scope R26): the instruction continues. -/
def State.report (s : State) (d : Diag) : State := s.setDiag d

/-! ### The memory address unit's check (20_memory R77) -/

/-- The range of `count` addresses from `base` is valid: empty, or its last address is at most 0xFFF. Addresses are
unbounded integers, so nothing wraps. -/
def rangeOk (base : Word) (count : Nat) : Bool := count == 0 || decide (base.toNat + count - 1 ≤ 0xFFF)

/-- The lowest address outside the valid range, `max(I, 0x1000)` (20_memory R77). -/
def oobAddr (base : Word) : Nat := max base.toNat 0x1000

/-- What an instruction that accesses `count` bytes at `I` does: its effect `done` if the whole range is valid, else
`raise Diag(MEM_OOB, max(I, 0x1000))` and nothing else (20_memory R77). -/
def State.checkRange (s : State) (i : Instr) (count : Nat) (done : State) : State :=
  if rangeOk s.idx count then done else s.raise (.memOob s.instrAddr (encodeWord i) (oobAddr s.idx))

/-! ### The stack (10_state R36, R37) -/

/-- `S[SP] <- pc; SP <- SP + 1`, or `none` when the stack is full (42_flow R182). -/
def State.push (s : State) : Option State :=
  if h : s.sp.val < 16 then
    some { s with stack := s.stack.set s.sp.val s.pc h, sp := ⟨s.sp.val + 1, Nat.succ_lt_succ h⟩ }
  else none

/-- `SP <- SP - 1; pc <- S[SP]`, or `none` when the stack is empty (42_flow R180). The entry keeps its value. -/
def State.pop (s : State) : Option State :=
  if h : 0 < s.sp.val then
    some { s with
      sp := ⟨s.sp.val - 1, Nat.lt_of_le_of_lt (Nat.sub_le _ _) s.sp.isLt⟩
      pc := s.stack[s.sp.val - 1]'(by omega) }
  else none

/-! ### The keypad (10_state R38) -/

/-- `K[k] = 1`. A key that does not exist (`k >= 16`) reads as not pressed (43_skip R197). -/
def State.key (s : State) (k : Nat) : Bool := s.keys[k]?.getD false

/-- The lowest-numbered pressed key: the scan "in ascending order" of 46_timers_keys R233. -/
def State.firstKey (s : State) : Option Nat := (List.range Config.numKeys).find? fun k => s.key k

/-- `report Diag(KEY_RANGE, k)` when the key index is 16 or more (43_skip R195, R196, R197). -/
def State.noteKey (s : State) (i : Instr) (k : Byte) : State :=
  if 16 ≤ k.toNat then s.report (.keyRange s.instrAddr (encodeWord i) k) else s

/-! ### The framebuffer (10_state R39, 41_display R171) -/

/-- `FB[y][x] = 1`; false outside the 64 x 32 grid. -/
def FrameBuf.lit (f : FrameBuf) (x y : Nat) : Bool := (f[y]?.getD 0#64).getLsbD x

/-- `FB[y][x] <- FB[y][x] xor 1`. -/
def FrameBuf.flip (f : FrameBuf) (x y : Nat) : FrameBuf :=
  f.setIfInBounds y (f[y]?.getD 0#64 ^^^ BitVec.twoPow 64 x)

/-- A clear framebuffer. -/
def FrameBuf.clear : FrameBuf := Vector.replicate 32 0#64

/-- The framebuffer so far in a draw, and whether a lit pixel has been turned off. -/
abbrev DrawAcc := FrameBuf × Bool

/-- One set sprite bit at pixel `(px, py)`: `if FB[py][px] = 1 then x[15] <- 1; FB[py][px] <- FB[py][px] xor 1`
(41_display R171). -/
def drawBit (px py : Nat) (d : DrawAcc) : DrawAcc := (FrameBuf.flip d.1 px py, d.2 || FrameBuf.lit d.1 px py)

/-- One sprite byte: `for c in 0..7: if b[7 - c] = 1 then ...`, bit 7 leftmost, each pixel's column wrapped
(41_display R171). -/
def drawByte (b : Byte) (x0 py : Nat) (d : DrawAcc) : DrawAcc :=
  (List.range 8).foldl (fun d c => if b.getLsbD (7 - c) then drawBit ((x0 + c) % 64) py d else d) d

/-- The sprite of `n` rows at `base`: `for r in 0..N-1`, each row's framebuffer row wrapped (41_display R171). -/
def drawSprite (m : Memory) (base x0 y0 n : Nat) (f : FrameBuf) : DrawAcc :=
  (List.range n).foldl (fun d r => drawByte (m.read (base + r)) x0 ((y0 + r) % 32) d) (f, false)

/-! ### The cycle (40_cycle) -/

/-- The fetch is in bounds (20_memory R78). -/
def State.fetchOk (s : State) : Bool := s.pc.toNat ≤ 0xFFE

/-- The opcode at the pc, big-endian (40_cycle R141). -/
def State.fetchWord (s : State) : Word := opcodeOf (s.mem.read s.pc.toNat) (s.mem.read (s.pc.toNat + 1))

/-- The start of a cycle: no diagnostic and no tone request yet, `pc <- (pc + 2) mod 2^16` (40_cycle R141, R154). The
pc steps by 2 whether or not the fetch is in bounds (R142). -/
def State.beginCycle (s : State) : State := { s with pc := s.pc + 2#16, diag := none, tone := false }

/-- An unknown opcode: reported, and nothing else changes; the pc keeps the post-fetch value whatever FAIL_PC_POLICY is
(30_encoding R106, 40_cycle R145, 60_exceptions R243). -/
def State.unknownOp (s : State) (opcode : Word) : State := s.report (.unknownOpcode s.instrAddr opcode)

/-- A fetch out of bounds: reported, nothing decoded or executed (40_cycle R142). -/
def State.oobFetch (s : State) : State := s.report (.fetchOob s.instrAddr)

/-- A timer counts down by one and is clamped at 0 (40_cycle R147). -/
def countDown (b : Byte) : Byte := if b = 0#8 then 0#8 else b - 1#8

/-- The timer update, stage (4) of every cycle, with the tone request exactly when ST goes from 1 to 0
(40_cycle R147, R148). -/
def State.timerUpdate (s : State) : State :=
  { s with dt := countDown s.dt, st := countDown s.st, tone := s.st != 0#8 && countDown s.st == 0#8 }

/-- The cycle's outputs join the trace (10_state R46), and the next cycle has the next random byte. -/
def State.recordOutputs (s : State) : State :=
  { s with trace := { diag := s.diag, tone := s.tone } :: s.trace, cycleNo := s.cycleNo + 1 }

/-- The end of a cycle: the timer update, then the outputs. -/
def State.endCycle (s : State) : State := s.timerUpdate.recordOutputs

/-- `rand_byte`, this cycle's random input (10_state R47): a free value (log 2). -/
def State.randByte (s : State) : Byte := Config.randByte s.cycleNo

/-- End the cycle after execute, whatever its outcome. -/
def endOutcome : Host.Outcome State Fault Refusal → Host.Outcome State Fault Refusal
  | .next s => .next s.endCycle
  | .fault f => .fault f
  | .refused r => .refused r

/-- Put an instruction's bytes where the next fetch reads them. A pc whose fetch would be out of bounds reads no bytes
(40_cycle R142), so the pc is then set to 0x200, the default PROGRAM_START (log 12). -/
def State.placeWord (s : State) (bytes : List Byte) : State :=
  let t := if s.fetchOk then s else s.setPc (BitVec.ofNat 16 Config.programStart)
  t.setMem (t.mem.writeBytes t.pc.toNat bytes)

end Sys2Proof.Machine
end

