-- ==== Sys2Proof/Machine/Flags.lean ====
section
/-!
DEFINITION. The values written to VF (10_state R32): carry, no-borrow, shifted-out bit, collision. Every write stores 0
or 1. The order of the writes when VF is also the destination is the meanings' (44_alu R213).
-/
namespace Sys2Proof.Machine

/-- A condition as a flag value. -/
def flagByte (c : Bool) : Byte := if c then 1#8 else 0#8

/-- The carry of 8XY4: `(a + b > 255) ? 1 : 0`, over unbounded integers (44_alu R206). -/
def carryFlag (a b : Byte) : Byte := flagByte (decide (255 < a.toNat + b.toNat))

/-- The no-borrow flag of 8XY5 and 8XY7: 1 when the minuend is strictly greater (44_alu R207, R209; C4). -/
def noBorrowFlag (minuend subtrahend : Byte) : Byte := flagByte (decide (subtrahend.toNat < minuend.toNat))

/-- The bit 8XY6 shifts out, `a and 1` (44_alu R208). -/
def lowBit (a : Byte) : Byte := a &&& 1#8

/-- The bit 8XYE shifts out, `a >> 7` (44_alu R210). -/
def highBit (a : Byte) : Byte := a >>> 7

/-- `VF <- f`. -/
def State.setFlag (s : State) (f : Byte) : State := s.setReg vf f

end Sys2Proof.Machine
end

