-- ==== Sys2Proof/Machine/Operands.lean ====
section
/-!
DEFINITION. The operand forms: how an instruction's fields and registers become the address, target, index or digits
it uses (30_encoding R103, 20_memory R88).
-/
namespace Sys2Proof.Machine

/-- `zext_16(NNN)` (30_encoding R103). -/
def zextAddr (nnn : Addr) : Word := nnn.setWidth 16

/-- A register's byte as a 16-bit addend. -/
def zextByte (b : Byte) : Word := b.setWidth 16

/-- The target of BNNN, `(NNN + x[0]) mod 2^16`, not masked (42_flow R183). -/
def State.jpV0Target (s : State) (nnn : Addr) : Word := zextAddr nnn + zextByte (s.reg 0x0#4)

/-- The address of the glyph of a byte's low nibble, `FONT_BASE + 5 * (b and 0x0F)` (45_index_memory R222). -/
def State.glyphAddr (s : State) (b : Byte) : Word :=
  BitVec.ofNat 16 (s.params.fontBase.val + Config.glyphSize * (b &&& 0x0F#8).toNat)

/-- The decimal digits of a byte, hundreds first (45_index_memory R223). -/
def digits (b : Byte) : List Byte :=
  [BitVec.ofNat 8 (b.toNat / 100), BitVec.ofNat 8 (b.toNat / 10 % 10), BitVec.ofNat 8 (b.toNat % 10)]

/-- The column a draw starts at, `x[X] mod 64` (41_display R171). -/
def State.drawCol (s : State) (x : RegIdx) : Nat := (s.reg x).toNat % Config.fbWidth

/-- The row a draw starts at, `x[Y] mod 32` (41_display R171). -/
def State.drawRow (s : State) (y : RegIdx) : Nat := (s.reg y).toNat % Config.fbHeight

/-- The address of access `k` of an index instruction, `I + k`, over unbounded integers (20_memory R88). -/
def State.indexAddr (s : State) (k : Nat) : Nat := s.idx.toNat + k

/-- How many bytes FX55 and FX65 access, `X + 1` (20_memory R77). -/
def regCount (x : RegIdx) : Nat := x.toNat + 1

end Sys2Proof.Machine
end

