-- ==== Sys2Proof/Machine/Alu.lean ====
section
/-!
DEFINITION. Register loads and arithmetic: 6XNN, 7XNN, 8XY0 to 8XYE, CXNN (44_alu). All values are 8-bit and wrap
modulo 256 (R212). The writes happen in the order of R213.
-/
namespace Sys2Proof.Machine

/-- 6XNN `LD Vx, NN` (44_alu R200). -/
def execLdImm (x : RegIdx) (nn : Byte) (s : State) : Host.Outcome State Fault Refusal := .next (s.setReg x nn)

/-- 7XNN `ADD Vx, NN`, no flag (44_alu R201). -/
def execAddImm (x : RegIdx) (nn : Byte) (s : State) : Host.Outcome State Fault Refusal :=
  .next (s.setReg x (s.reg x + nn))

/-- 8XY0 `LD Vx, Vy` (44_alu R202). -/
def execLdReg (x y : RegIdx) (s : State) : Host.Outcome State Fault Refusal := .next (s.setReg x (s.reg y))

/-- 8XY1 `OR Vx, Vy`, no flag (44_alu R203). -/
def execOrReg (x y : RegIdx) (s : State) : Host.Outcome State Fault Refusal :=
  .next (s.setReg x (s.reg x ||| s.reg y))

/-- 8XY2 `AND Vx, Vy`, no flag (44_alu R204). -/
def execAndReg (x y : RegIdx) (s : State) : Host.Outcome State Fault Refusal :=
  .next (s.setReg x (s.reg x &&& s.reg y))

/-- 8XY3 `XOR Vx, Vy`, no flag (44_alu R205). -/
def execXorReg (x y : RegIdx) (s : State) : Host.Outcome State Fault Refusal :=
  .next (s.setReg x (s.reg x ^^^ s.reg y))

/-- 8XY4 `ADD Vx, Vy`: the sum, then the carry (44_alu R206, R213). -/
def execAddReg (x y : RegIdx) (s : State) : Host.Outcome State Fault Refusal :=
  .next ((s.setReg x (s.reg x + s.reg y)).setFlag (carryFlag (s.reg x) (s.reg y)))

/-- 8XY5 `SUB Vx, Vy`: the difference, then the flag (44_alu R207, R213). -/
def execSubReg (x y : RegIdx) (s : State) : Host.Outcome State Fault Refusal :=
  .next ((s.setReg x (s.reg x - s.reg y)).setFlag (noBorrowFlag (s.reg x) (s.reg y)))

/-- 8XY6 `SHR Vx`: the flag, then the shift of register X as it then stands (44_alu R208, R213). -/
def execShr (x : RegIdx) (s : State) : Host.Outcome State Fault Refusal :=
  let t := s.setFlag (lowBit (s.reg x))
  .next (t.setReg x (t.reg x >>> 1))

/-- 8XY7 `SUBN Vx, Vy`: the difference, then the flag (44_alu R209, R213). -/
def execSubnReg (x y : RegIdx) (s : State) : Host.Outcome State Fault Refusal :=
  .next ((s.setReg x (s.reg y - s.reg x)).setFlag (noBorrowFlag (s.reg y) (s.reg x)))

/-- 8XYE `SHL Vx`: the flag, then the shift of register X as it then stands (44_alu R210, R213). -/
def execShl (x : RegIdx) (s : State) : Host.Outcome State Fault Refusal :=
  let t := s.setFlag (highBit (s.reg x))
  .next (t.setReg x (t.reg x <<< 1))

/-- CXNN `RND Vx, NN`: the cycle's free random byte under a mask (44_alu R211). -/
def execRnd (x : RegIdx) (nn : Byte) (s : State) : Host.Outcome State Fault Refusal :=
  .next (s.setReg x (s.randByte &&& nn))

end Sys2Proof.Machine
end

