-- ==== Sys2Proof/Machine/Display.lean ====
section
/-!
DEFINITION. The display instructions 00E0 and DXYN (41_display). As in every family file, `s.pc` is the post-fetch pc
(40_cycle R146).
-/
namespace Sys2Proof.Machine

/-- 00E0 `CLS` (41_display R170). -/
def execCls (s : State) : Host.Outcome State Fault Refusal := .next (s.setFb FrameBuf.clear)

/-- The state a draw leaves: the coordinates are read before VF is written (41_display R171, D11). -/
def State.draw (s : State) (x y : RegIdx) (n : Nibble) : State :=
  let d := drawSprite s.mem s.idx.toNat (s.drawCol x) (s.drawRow y) n.toNat s.fb
  (s.setFb d.1).setFlag (flagByte d.2)

/-- DXYN `DRW Vx, Vy, N` (41_display R171). -/
def execDrw (x y : RegIdx) (n : Nibble) (s : State) : Host.Outcome State Fault Refusal :=
  .next (s.checkRange (.drw x y n) n.toNat (s.draw x y n))

end Sys2Proof.Machine
end

