-- ==== Sys2Proof/Machine/Flow.lean ====
section
/-!
DEFINITION. Control transfer: 00EE, 1NNN, 2NNN, BNNN (42_flow).
-/
namespace Sys2Proof.Machine

/-- 00EE `RET` (42_flow R180). -/
def execRet (s : State) : Host.Outcome State Fault Refusal :=
  match s.pop with
  | some t => .next t
  | none => .next (s.raise (.stackUnderflow s.instrAddr (encodeWord .ret)))

/-- 1NNN `JP NNN` (42_flow R181). -/
def execJp (nnn : Addr) (s : State) : Host.Outcome State Fault Refusal := .next (s.setPc (zextAddr nnn))

/-- 2NNN `CALL NNN` (42_flow R182). -/
def execCall (nnn : Addr) (s : State) : Host.Outcome State Fault Refusal :=
  match s.push with
  | some t => .next (t.setPc (zextAddr nnn))
  | none => .next (s.raise (.stackOverflow s.instrAddr (encodeWord (.call nnn))))

/-- BNNN `JP V0, NNN` (42_flow R183). -/
def execJpV0 (nnn : Addr) (s : State) : Host.Outcome State Fault Refusal := .next (s.setPc (s.jpV0Target nnn))

end Sys2Proof.Machine
end

