-- ==== Sys2Proof/Machine/Index.lean ====
section
/-!
DEFINITION. The index register and memory transfers: ANNN, FX1E, FX29, FX33, FX55, FX65 (45_index_memory). `I` is never
changed by an access (R226).
-/
namespace Sys2Proof.Machine

/-- ANNN `LD I, NNN` (45_index_memory R220). -/
def execLdIdx (nnn : Addr) (s : State) : Host.Outcome State Fault Refusal := .next (s.setIdx (zextAddr nnn))

/-- FX1E `ADD I, Vx`: modulo 2^16, no flag (45_index_memory R221). -/
def execAddIdx (x : RegIdx) (s : State) : Host.Outcome State Fault Refusal :=
  .next (s.setIdx (s.idx + zextByte (s.reg x)))

/-- FX29 `LD F, Vx` (45_index_memory R222). -/
def execLdFont (x : RegIdx) (s : State) : Host.Outcome State Fault Refusal :=
  .next (s.setIdx (s.glyphAddr (s.reg x)))

/-- FX33 `LD B, Vx` (45_index_memory R223). -/
def execLdBcd (x : RegIdx) (s : State) : Host.Outcome State Fault Refusal :=
  .next (s.checkRange (.ldBcd x) 3 (s.setMem (s.mem.writeBytes (s.indexAddr 0) (digits (s.reg x)))))

/-- FX55 `LD [I], Vx` (45_index_memory R224). -/
def execStRegs (x : RegIdx) (s : State) : Host.Outcome State Fault Refusal :=
  .next (s.checkRange (.stRegs x) (regCount x) (s.setMem (s.mem.writeBytes (s.indexAddr 0) (s.regsUpTo x))))

/-- FX65 `LD Vx, [I]` (45_index_memory R225). -/
def execLdRegs (x : RegIdx) (s : State) : Host.Outcome State Fault Refusal :=
  .next (s.checkRange (.ldRegs x) (regCount x) (s.setRegs (s.mem.readBytes (s.indexAddr 0) (regCount x))))

end Sys2Proof.Machine
end

