-- ==== Sys2Proof/Machine/Skip.lean ====
section
/-!
DEFINITION. The conditional skips 3XNN, 4XNN, 5XY0, 9XY0, EX9E, EXA1 (43_skip).
-/
namespace Sys2Proof.Machine

/-- 3XNN `SE Vx, NN` (43_skip R191). -/
def execSeImm (x : RegIdx) (nn : Byte) (s : State) : Host.Outcome State Fault Refusal :=
  .next (s.skipIf (s.reg x == nn))

/-- 4XNN `SNE Vx, NN` (43_skip R192). -/
def execSneImm (x : RegIdx) (nn : Byte) (s : State) : Host.Outcome State Fault Refusal :=
  .next (s.skipIf (s.reg x != nn))

/-- 5XY0 `SE Vx, Vy` (43_skip R193). -/
def execSeReg (x y : RegIdx) (s : State) : Host.Outcome State Fault Refusal :=
  .next (s.skipIf (s.reg x == s.reg y))

/-- 9XY0 `SNE Vx, Vy` (43_skip R194). -/
def execSneReg (x y : RegIdx) (s : State) : Host.Outcome State Fault Refusal :=
  .next (s.skipIf (s.reg x != s.reg y))

/-- EX9E `SKP Vx` (43_skip R195, R197). -/
def execSkp (x : RegIdx) (s : State) : Host.Outcome State Fault Refusal :=
  .next ((s.noteKey (.skp x) (s.reg x)).skipIf (s.key (s.reg x).toNat))

/-- EXA1 `SKNP Vx` (43_skip R196, R197). -/
def execSknp (x : RegIdx) (s : State) : Host.Outcome State Fault Refusal :=
  .next ((s.noteKey (.sknp x) (s.reg x)).skipIf (!s.key (s.reg x).toNat))

end Sys2Proof.Machine
end

