-- ==== Sys2Proof/Machine/Timers.lean ====
section
/-!
DEFINITION. The timer and key-wait instructions FX07, FX15, FX18, FX0A (46_timers_keys). The timer update of the same
cycle follows execute (40_cycle R149).
-/
namespace Sys2Proof.Machine

/-- FX07 `LD Vx, DT` (46_timers_keys R230). -/
def execLdFromDt (x : RegIdx) (s : State) : Host.Outcome State Fault Refusal := .next (s.setReg x s.dt)

/-- FX15 `LD DT, Vx` (46_timers_keys R231). -/
def execLdDt (x : RegIdx) (s : State) : Host.Outcome State Fault Refusal := .next (s.setDt (s.reg x))

/-- FX18 `LD ST, Vx` (46_timers_keys R232). -/
def execLdSt (x : RegIdx) (s : State) : Host.Outcome State Fault Refusal := .next (s.setSt (s.reg x))

/-- FX0A `LD Vx, K`: the lowest pressed key, or else the pc rewound by 2 so that the same instruction is fetched again
(46_timers_keys R233). -/
def execLdKey (x : RegIdx) (s : State) : Host.Outcome State Fault Refusal :=
  match s.firstKey with
  | some k => .next (s.setReg x (BitVec.ofNat 8 k))
  | none => .next (s.setPc s.instrAddr)

end Sys2Proof.Machine
end

