-- ==== Sys2Proof/Machine/Step.lean ====
section
/-!
DEFINITION. One step is one `cycle()` (40_cycle R140, R154): fetch, decode, execute, timer update, always to
completion. Host operations are separate transactions between steps (HostOps.lean; log 10).
-/
namespace Sys2Proof.Machine

/-- `cycle()` (40_cycle R154). -/
def step (s : State) : Host.Outcome State Fault Refusal :=
  if s.fetchOk then
    match decodeOp s.fetchWord with
    | some i => endOutcome (exec i s.beginCycle)
    | none => .next (s.beginCycle.unknownOp s.fetchWord).endCycle
  else .next s.beginCycle.oobFetch.endCycle

/-- `s` with the instruction of spec/opcode_table.json's bits `w` (of which the table gives `nbits`) stored where the
next step fetches it. It stands for the load of a program from outside (log 12). -/
def State.withFetchWord (s : State) (nbits w : Nat) : State := s.placeWord (tableBytes nbits w)

end Sys2Proof.Machine
end

