-- ==== Sys2Proof/Machine/Text.lean ====
section
/-!
DEFINITION. The assembler syntax of 30_encoding section 4 and the disassembler of section 5: instructions as text, and
instructions from a mnemonic and its operands. No rule of the core depends on the text (00_scope R6; log 14).
-/
namespace Sys2Proof.Machine

/-! ### The disassembler (30_encoding R111, R114, R115) -/

/-- A hexadecimal digit. -/
def hexDigit (n : Nat) : String :=
  match n % 16 with
  | 0 => "0" | 1 => "1" | 2 => "2" | 3 => "3" | 4 => "4" | 5 => "5" | 6 => "6" | 7 => "7"
  | 8 => "8" | 9 => "9" | 10 => "A" | 11 => "B" | 12 => "C" | 13 => "D" | 14 => "E" | _ => "F"

/-- The low `digits` hexadecimal digits of a number. -/
def hex (digits n : Nat) : String :=
  match digits with
  | 0 => ""
  | d + 1 => hex d (n / 16) ++ hexDigit n

/-- `V0` to `VF`. -/
def regText (x : RegIdx) : String := "V" ++ hexDigit x.toNat

/-- `0xNNN`, three digits. -/
def addrText (nnn : Addr) : String := "0x" ++ hex 3 nnn.toNat

/-- `0xNN`, two digits. -/
def byteText (nn : Byte) : String := "0x" ++ hex 2 nn.toNat

/-- Two registers, destination first. -/
def regPairText (x y : RegIdx) : String := regText x ++ ", " ++ regText y

/-- A register and an immediate. -/
def regByteText (x : RegIdx) (nn : Byte) : String := regText x ++ ", " ++ byteText nn

/-- The text of an instruction, by the table of 30_encoding R111. -/
def instrText : Instr → String
  | .cls => "CLS"
  | .ret => "RET"
  | .jp nnn => "JP " ++ addrText nnn
  | .call nnn => "CALL " ++ addrText nnn
  | .seImm x nn => "SE " ++ regByteText x nn
  | .sneImm x nn => "SNE " ++ regByteText x nn
  | .seReg x y => "SE " ++ regPairText x y
  | .ldImm x nn => "LD " ++ regByteText x nn
  | .addImm x nn => "ADD " ++ regByteText x nn
  | .ldReg x y => "LD " ++ regPairText x y
  | .orReg x y => "OR " ++ regPairText x y
  | .andReg x y => "AND " ++ regPairText x y
  | .xorReg x y => "XOR " ++ regPairText x y
  | .addReg x y => "ADD " ++ regPairText x y
  | .subReg x y => "SUB " ++ regPairText x y
  | .shr x => "SHR " ++ regText x
  | .subnReg x y => "SUBN " ++ regPairText x y
  | .shl x => "SHL " ++ regText x
  | .sneReg x y => "SNE " ++ regPairText x y
  | .ldIdx nnn => "LD I, " ++ addrText nnn
  | .jpV0 nnn => "JP V0, " ++ addrText nnn
  | .rnd x nn => "RND " ++ regByteText x nn
  | .drw x y n => "DRW " ++ regPairText x y ++ ", 0x" ++ hex 1 n.toNat
  | .skp x => "SKP " ++ regText x
  | .sknp x => "SKNP " ++ regText x
  | .ldFromDt x => "LD " ++ regText x ++ ", DT"
  | .ldKey x => "LD " ++ regText x ++ ", K"
  | .ldDt x => "LD DT, " ++ regText x
  | .ldSt x => "LD ST, " ++ regText x
  | .addIdx x => "ADD I, " ++ regText x
  | .ldFont x => "LD F, " ++ regText x
  | .ldBcd x => "LD B, " ++ regText x
  | .stRegs x => "LD [I], " ++ regText x
  | .ldRegs x => "LD " ++ regText x ++ ", [I]"

/-- The text of an opcode: a generic label for one that matches no pattern (30_encoding R115). -/
def disassembleWord (w : Word) : String :=
  match decodeOp w with
  | some i => instrText i
  | none => "UNKNOWN 0x" ++ hex 4 w.toNat

/-! ### From syntax to instructions (30_encoding R113) -/

/-- A register operand in range. -/
def asReg (n : Nat) : Option RegIdx := if WellFormed.reg n then some (BitVec.ofNat 4 n) else none

/-- A 12-bit address in range. -/
def asAddr (n : Nat) : Option Addr := if WellFormed.addr n then some (BitVec.ofNat 12 n) else none

/-- An 8-bit immediate in range. -/
def asByte (n : Nat) : Option Byte := if WellFormed.byte n then some (BitVec.ofNat 8 n) else none

/-- A 4-bit count in range. -/
def asCount (n : Nat) : Option Nibble := if WellFormed.count n then some (BitVec.ofNat 4 n) else none

/-- Two registers, checked. -/
def onRegs (x y : Nat) (f : RegIdx → RegIdx → Instr) : Option Instr :=
  match asReg x, asReg y with
  | some x, some y => some (f x y)
  | _, _ => none

/-- A register and an immediate, checked. -/
def onRegByte (x n : Nat) (f : RegIdx → Byte → Instr) : Option Instr :=
  match asReg x, asByte n with
  | some x, some n => some (f x n)
  | _, _ => none

/-- One register, checked. -/
def onReg (x : Nat) (f : RegIdx → Instr) : Option Instr := (asReg x).map f

/-- One address, checked. -/
def onAddr (n : Nat) (f : Addr → Instr) : Option Instr := (asAddr n).map f

/-- The LD forms of 30_encoding R111. -/
def assembleLd : List AsmOperand → Option Instr
  | [.v x, .num n] => onRegByte x n .ldImm
  | [.v x, .v y] => onRegs x y .ldReg
  | [.i, .num n] => onAddr n .ldIdx
  | [.v x, .dt] => onReg x .ldFromDt
  | [.v x, .k] => onReg x .ldKey
  | [.dt, .v x] => onReg x .ldDt
  | [.st, .v x] => onReg x .ldSt
  | [.f, .v x] => onReg x .ldFont
  | [.b, .v x] => onReg x .ldBcd
  | [.atI, .v x] => onReg x .stRegs
  | [.v x, .atI] => onReg x .ldRegs
  | _ => none

/-- The forms of the arithmetic mnemonics on two registers. -/
def assembleRegs (f : RegIdx → RegIdx → Instr) : List AsmOperand → Option Instr
  | [.v x, .v y] => onRegs x y f
  | _ => none

/-- The forms of the mnemonics with one register. -/
def assembleReg (f : RegIdx → Instr) : List AsmOperand → Option Instr
  | [.v x] => onReg x f
  | _ => none

/-- The forms of SE and SNE: a register against an immediate or a register. -/
def assembleSkip (imm : RegIdx → Byte → Instr) (reg : RegIdx → RegIdx → Instr) : List AsmOperand → Option Instr
  | [.v x, .num n] => onRegByte x n imm
  | [.v x, .v y] => onRegs x y reg
  | _ => none

/-- The forms of ADD. -/
def assembleAdd : List AsmOperand → Option Instr
  | [.v x, .num n] => onRegByte x n .addImm
  | [.v x, .v y] => onRegs x y .addReg
  | [.i, .v x] => onReg x .addIdx
  | _ => none

/-- The forms of JP; the register of the indexed form is always V0 (42_flow R183). -/
def assembleJp : List AsmOperand → Option Instr
  | [.num n] => onAddr n .jp
  | [.v 0, .num n] => onAddr n .jpV0
  | _ => none

/-- The form of CALL. -/
def assembleCall : List AsmOperand → Option Instr
  | [.num n] => onAddr n .call
  | _ => none

/-- The form of RND. -/
def assembleRnd : List AsmOperand → Option Instr
  | [.v x, .num n] => onRegByte x n .rnd
  | _ => none

/-- The form of DRW. -/
def assembleDrw : List AsmOperand → Option Instr
  | [.v x, .v y, .num n] =>
    match asReg x, asReg y, asCount n with
    | some x, some y, some n => some (.drw x y n)
    | _, _, _ => none
  | _ => none

/-- The instruction of a mnemonic and its operands, destination first (30_encoding R111, R113): `none` for a mnemonic,
a form or an operand value the syntax does not have. Its opcode is `encodeWord` of the instruction. -/
def assemble (mnemonic : String) (ops : List AsmOperand) : Option Instr :=
  if mnemonic = "CLS" then (if ops = [] then some .cls else none)
  else if mnemonic = "RET" then (if ops = [] then some .ret else none)
  else if mnemonic = "JP" then assembleJp ops
  else if mnemonic = "CALL" then assembleCall ops
  else if mnemonic = "SE" then assembleSkip .seImm .seReg ops
  else if mnemonic = "SNE" then assembleSkip .sneImm .sneReg ops
  else if mnemonic = "LD" then assembleLd ops
  else if mnemonic = "ADD" then assembleAdd ops
  else if mnemonic = "OR" then assembleRegs .orReg ops
  else if mnemonic = "AND" then assembleRegs .andReg ops
  else if mnemonic = "XOR" then assembleRegs .xorReg ops
  else if mnemonic = "SUB" then assembleRegs .subReg ops
  else if mnemonic = "SUBN" then assembleRegs .subnReg ops
  else if mnemonic = "SHR" then assembleReg .shr ops
  else if mnemonic = "SHL" then assembleReg .shl ops
  else if mnemonic = "RND" then assembleRnd ops
  else if mnemonic = "DRW" then assembleDrw ops
  else if mnemonic = "SKP" then assembleReg .skp ops
  else if mnemonic = "SKNP" then assembleReg .sknp ops
  else none

end Sys2Proof.Machine
end

