-- ==== Sys2Proof/Machine/HostOps.lean ====
section
/-!
DEFINITION. The block's interface (10_state R50 to R64, 70_reset R270 to R275): the operations a host invokes between
whole cycles. Each is one atomic transaction; a reading operation has no state among its results, so it changes
nothing. `cycle()` itself is `step`.
-/
namespace Sys2Proof.Machine

/-! ### Reset and load (70_reset section 1) -/

/-- The reset procedure `reset(programBytes)` (70_reset R270). Every item takes its value of 10_state R49 under the
machine's parameters. `P` is not changed. The outputs are those of no cycle ("reports no diagnostic and makes no tone
request"); the parameters, the trace of past cycles and the index of the random input are not the block's to reset
(log 11). -/
def State.resetWith (s : State) (programBytes : List Byte) : State :=
  { State.reset with
    pc := zextAddr s.params.programStart
    mem := resetMemory s.params programBytes
    prog := s.prog
    params := s.params
    trace := s.trace
    cycleNo := s.cycleNo }

/-- `reset()`: the reset procedure on the retained program (70_reset R274). -/
def State.hostReset (s : State) : State := s.resetWith s.prog

/-- Power-on under any parameters: `P` empty, then `reset(empty)` (70_reset R275). Under the default parameters it is
`State.reset` (`State.powerOn_default`). -/
def State.powerOn (p : Params) : State := State.resetWith { State.reset with params := p } []

/-- `P <- bytes`. -/
def State.setProg (s : State) (bytes : List Byte) : State := { s with prog := bytes }

/-- The answer of `loadProgram` (10_state R52). -/
inductive LoadResult where
  | success
  | failure
  deriving DecidableEq, Repr

/-- The program is accepted: not empty, and it fits from PROGRAM_START (70_reset R273). -/
def loadFits (p : Params) (bytes : List Byte) : Bool :=
  bytes.length != 0 && decide (p.programStart.toNat + bytes.length ≤ Config.memSize)

/-- `loadProgram(bytes)` (70_reset R273): on success `P <- bytes`, then `reset(P)`; on failure nothing changes. -/
def State.loadProgram (s : State) (bytes : List Byte) : LoadResult × State :=
  if loadFits s.params bytes then (.success, (s.setProg bytes).hostReset) else (.failure, s)

/-! ### Host writes between cycles (10_state R53, R62) -/

/-- `setKey(code, pressed)`: ignored for `code >= 16` (10_state R53). -/
def State.setKey (s : State) (code : Nat) (pressed : Bool) : State :=
  { s with keys := s.keys.setIfInBounds code pressed }

/-- `writeTimers(dt, st)` (10_state R62). -/
def State.writeTimers (s : State) (dt st : Byte) : State := { s with dt := dt, st := st }

/-! ### Host reads (10_state R54 to R61) -/

/-- `isKeyDown(code)`: false for `code >= 16` (10_state R54). -/
def State.isKeyDown (s : State) (code : Nat) : Bool := s.key code

/-- `getRegister(index)`: 0 for `index >= 16` (10_state R55). -/
def State.getRegister (s : State) (index : Nat) : Byte := s.v[index]?.getD 0#8

/-- `getProgramCounter` (10_state R56). -/
def State.getProgramCounter (s : State) : Nat := s.pc.toNat

/-- `getIndex` (10_state R56). -/
def State.getIndex (s : State) : Nat := s.idx.toNat

/-- `getStackPointer` (10_state R56). -/
def State.getStackPointer (s : State) : Nat := s.sp.val

/-- `getDelayTimer` (10_state R56). -/
def State.getDelayTimer (s : State) : Nat := s.dt.toNat

/-- `getSoundTimer` (10_state R56). -/
def State.getSoundTimer (s : State) : Nat := s.st.toNat

/-- `getStack()`: all 16 entries, whatever `SP` is (10_state R57). -/
def State.getStack (s : State) : List Word := s.stack.toList

/-- `getMemory()`: the bytes at 0x000 to 0xFFF (10_state R58). -/
def State.getMemory (s : State) : List Byte := s.mem.readBytes 0 Config.memSize

/-- `getFramebuffer()`: one on/off value per cell, at flat index `y*64 + x` (10_state R39, R61). -/
def State.getFramebuffer (s : State) : List Bool :=
  (List.range (Config.fbWidth * Config.fbHeight)).map fun k =>
    s.fb.lit (k % Config.fbWidth) (k / Config.fbWidth)

/-- `peekOpcode(address)`: 0 where the second byte would be out of bounds (10_state R59). -/
def State.peekOpcode (s : State) (address : Nat) : Word :=
  if address + 1 ≤ 0xFFF then opcodeOf (s.mem.read address) (s.mem.read (address + 1)) else 0#16

/-- `disassemble(address)`: the text of the opcode `peekOpcode` reads (10_state R60, 30_encoding R114, R115). -/
def State.disassemble (s : State) (address : Nat) : String := disassembleWord (s.peekOpcode address)

/-! ### Any operation that can change the state (10_state R64) -/

/-- The operations of 10_state R64 that write: "Nothing else a host does can reach the core". -/
inductive HostMove where
  | cycle
  | loadProgram (bytes : List Byte)
  | reset
  | setKey (code : Nat) (pressed : Bool)
  | writeTimers (dt st : Byte)
  deriving DecidableEq, Repr

/-- One transaction of the host (10_state R50): a cycle, or an operation between cycles. -/
def State.move (s : State) : HostMove → Host.Outcome State Fault Refusal
  | .cycle => step s
  | .loadProgram bytes => .next (s.loadProgram bytes).2
  | .reset => .next s.hostReset
  | .setKey code pressed => .next (s.setKey code pressed)
  | .writeTimers dt st => .next (s.writeTimers dt st)

end Sys2Proof.Machine
end

