-- ==== Sys2Proof/Safety.lean ====
section
/-!
DEFINITION. The terms claims use: the invariant of the state, reachability under the host's operations, runs with no
diagnostic, the registers an instruction may write, and the pixels of a sprite said without the drawing loop.
-/
namespace Sys2Proof.Machine

/-! ### The invariant (10_state R65) -/

/-- `P` is empty or fits from PROGRAM_START: 3584 bytes at the default (10_state R65, 70_reset R273). -/
def progOk (p : Params) (bytes : List Byte) : Bool := decide (p.programStart.toNat + bytes.length ≤ Config.memSize)

/-- The invariant of 10_state R65 as far as the types do not give it: memory is in canonical form (so it is the 4096
bytes at 0x000 to 0xFFF and nothing else), `P` is within its bound, and every cycle run has its outputs in the trace. -/
def State.Inv (s : State) : Prop :=
  Memory.wf s.mem = true ∧ progOk s.params s.prog = true ∧ s.trace.length = s.cycleNo

/-- The states the host's operations reach from power-on, under any parameters (70_reset R275, 10_state R64). -/
inductive Reachable : State → Prop where
  | powerOn (p : Params) : Reachable (State.powerOn p)
  | move {s t : State} (m : HostMove) (hs : Reachable s) (h : s.move m = .next t) : Reachable t

/-- No cycle so far reported a diagnostic: what a claim about a run assumes (10_state R46, 60_exceptions R256). -/
def State.noDiagSoFar (s : State) : Bool := s.trace.all fun o => o.diag == none

/-! ### What an instruction may write -/

/-- The registers an instruction may write: its X selector, V0 to VX, or VF as a side effect (10_state R33). -/
def writesReg : Instr → RegIdx → Bool
  | .ldImm x _ | .addImm x _ | .ldReg x _ | .orReg x _ | .andReg x _ | .xorReg x _ | .rnd x _ | .ldFromDt x
  | .ldKey x => fun r => r == x
  | .addReg x _ | .subReg x _ | .subnReg x _ | .shr x | .shl x => fun r => r == x || r == vf
  | .drw _ _ _ => fun r => r == vf
  | .ldRegs x => fun r => decide (r.toNat ≤ x.toNat)
  | .cls | .ret | .jp _ | .call _ | .seImm _ _ | .sneImm _ _ | .seReg _ _ | .sneReg _ _ | .ldIdx _ | .jpV0 _
  | .skp _ | .sknp _ | .ldDt _ | .ldSt _ | .addIdx _ | .ldFont _ | .ldBcd _ | .stRegs _ => fun _ => false

/-! ### Sprites (41_display R171, R172) -/

/-- Whether the sprite of `n` rows at address `base`, drawn at column `x0` and row `y0`, has a set bit on pixel
`(px, py)`: the pixel lies in its row `r` and column `c` counted with wraparound, and bit `7 - c` of byte `r` is set. -/
def spriteBit (m : Memory) (base x0 y0 n px py : Nat) : Bool :=
  let r := (py + 32 - y0) % 32
  let c := (px + 64 - x0) % 64
  decide (r < n) && decide (c < 8) && (m.read (base + r)).getLsbD (7 - c)

end Sys2Proof.Machine
end

