-- ==== Sys2Proof/Certificates/Slice0/Obligations.lean ====
section
/-!
DEFINITION. The statements for the provers. Each docstring names the rule of spec/ it formalises. Where a clause rests
on a choice the spec marks as its own ([decision], [derived]) or on an entry of the assumption log, the docstring says
so. Every statement holds for all values of the block's parameters and in every state, unless it has premises; none assumes
the state is one a run reaches but through `State.Inv`.
-/
open Sys2Proof Sys2Proof.Machine

/-! ### Encoding (30_encoding) -/

/-- Decoding the bytes of any instruction, whatever follows them, gives that instruction and what follows, with every
operand at every value its field admits (R100, R102, R113). -/
def Obligations.DecodeOfEncodeIsTheInstruction : Prop :=
  ∀ (i : Instr) (rest : List Byte), decode (encode i ++ rest) = .ok (i, rest)

/-- Encoding what an opcode decodes to gives the opcode back, but for the Y field of 8XY6 and 8XYE, which is ignored and
which an encoder writes as 0 (R104, R111). -/
def Obligations.EncodeOfDecodeIsTheWordUpToIgnoredY : Prop :=
  ∀ (w : Word) (i : Instr), decodeOp w = some i →
    encodeWord i = if opH w = 0x8#4 ∧ (opN w = 0x6#4 ∨ opN w = 0xE#4) then w &&& 0xFF0F#16 else w

/-- The two-level dispatch is the opcode table: an opcode lies in a row exactly when it decodes to an instruction of that
row (so no opcode lies in two rows), and it decodes to nothing exactly when it lies in no row (R104, R106, R110). -/
def Obligations.DispatchAgreesWithTheOpcodeTable : Prop :=
  (∀ (w : Word) (r : OpRow), r ∈ opcodeTable → (r.holds w = true ↔ ∃ i, decodeOp w = some i ∧ rowOf i = r)) ∧
  (∀ w : Word, decodeOp w = none ↔ ∀ r ∈ opcodeTable, r.holds w = false)

/-- The unknown opcodes are exactly those R107 lists, family by family (R107 derives the list from R104; its counts are
not stated here). -/
def Obligations.UnknownOpcodesByFamily : Prop :=
  ∀ w : Word, decodeOp w = none ↔
    (opH w = 0x0#4 ∧ w ≠ 0x00E0#16 ∧ w ≠ 0x00EE#16) ∨ (opH w = 0x5#4 ∧ opN w ≠ 0#4) ∨
    (opH w = 0x8#4 ∧ opN w ∈ [0x8#4, 0x9#4, 0xA#4, 0xB#4, 0xC#4, 0xD#4, 0xF#4]) ∨ (opH w = 0x9#4 ∧ opN w ≠ 0#4) ∨
    (opH w = 0xE#4 ∧ opNN w ∉ [0x9E#8, 0xA1#8]) ∨
    (opH w = 0xF#4 ∧ opNN w ∉ [0x07#8, 0x0A#8, 0x15#8, 0x18#8, 0x1E#8, 0x29#8, 0x33#8, 0x55#8, 0x65#8])

/-- A sanity check: a word of each format, written out from R102, decodes to the instruction it stands for, and three
unknown words to none. -/
def Obligations.WordsOfEachFormatDecode : Prop :=
  decodeOp 0x00E0#16 = some .cls ∧ decodeOp 0x2208#16 = some (.call 0x208#12) ∧
  decodeOp 0x6A3F#16 = some (.ldImm 0xA#4 0x3F#8) ∧ decodeOp 0x8344#16 = some (.addReg 0x3#4 0x4#4) ∧
  decodeOp 0x8346#16 = some (.shr 0x3#4) ∧ decodeOp 0xD125#16 = some (.drw 0x1#4 0x2#4 0x5#4) ∧
  decodeOp 0xF20A#16 = some (.ldKey 0x2#4) ∧ decodeOp 0xF265#16 = some (.ldRegs 0x2#4) ∧
  decodeOp 0x0000#16 = none ∧ decodeOp 0x5121#16 = none ∧ decodeOp 0x01E0#16 = none

/-! ### The cycle (40_cycle) -/

/-- A step runs the decoded instruction (R140, R141, R144, R147, R148, R154): when the fetch is in bounds and the two
bytes at the pc, high byte first, decode to `i`, execute runs `i` on the state with the pc advanced by 2 and no output
yet; when it answers `u`, the step answers `u` with the timers counted down, the tone request exactly when ST was 1, and
the outputs added to the trace (the trace and the cycle count are the model's own, logs 6 and 7). -/
def Obligations.StepRunsTheDecodedInstruction : Prop :=
  ∀ (s : State) (i : Instr), s.pc.toNat ≤ 0xFFE →
    decode [s.mem.read s.pc.toNat, s.mem.read (s.pc.toNat + 1)] = .ok (i, []) →
    i.wellFormed = true ∧
    ∀ u, exec i { s with pc := s.pc + 2#16, diag := none, tone := false } = .next u →
      step s = .next { u with
        dt := BitVec.ofNat 8 (u.dt.toNat - 1), st := BitVec.ofNat 8 (u.st.toNat - 1), tone := decide (u.st = 1#8),
        trace := { diag := u.diag, tone := decide (u.st = 1#8) } :: u.trace, cycleNo := u.cycleNo + 1 }

/-- An unknown opcode is reported and is a no-op that still advances the pc by 2, whatever FAIL_PC_POLICY is; the timer
update still runs (R106, R145). -/
def Obligations.UnknownOpcodeIsAReportedNoOp : Prop :=
  ∀ (s : State) (w : Word), s.pc.toNat ≤ 0xFFE →
    w.toNat = (s.mem.read s.pc.toNat).toNat * 256 + (s.mem.read (s.pc.toNat + 1)).toNat → decodeOp w = none →
    ∃ t, step s = .next t ∧ t.pc = s.pc + 2#16 ∧ t.diag = some (.unknownOpcode s.pc w) ∧
      t.dt.toNat = s.dt.toNat - 1 ∧ t.st.toNat = s.st.toNat - 1 ∧ t.tone = decide (s.st = 1#8) ∧
      t = { s with pc := t.pc, diag := t.diag, dt := t.dt, st := t.st, tone := t.tone, trace := t.trace,
                   cycleNo := t.cycleNo }

/-- A fetch out of bounds, `pc >= 0xFFF`, reads no byte, reports FETCH_OOB and steps the pc by 2 modulo 2^16; nothing is
executed, and the timer update still runs. The no-op is the spec's own choice (R142, "The spec's choice is the no-op",
D2). -/
def Obligations.FetchOutOfBoundsIsAReportedNoOp : Prop :=
  ∀ s : State, 0xFFF ≤ s.pc.toNat →
    ∃ t, step s = .next t ∧ t.pc.toNat = (s.pc.toNat + 2) % 65536 ∧ t.diag = some (.fetchOob s.pc) ∧
      t.dt.toNat = s.dt.toNat - 1 ∧ t.st.toNat = s.st.toNat - 1 ∧ t.tone = decide (s.st = 1#8) ∧
      t = { s with pc := t.pc, diag := t.diag, dt := t.dt, st := t.st, tone := t.tone, trace := t.trace,
                   cycleNo := t.cycleNo }

/-- Every cycle completes: from every state the step answers a next state, with exactly one output record added to the
trace, and it changes neither the keypad, nor the retained program, nor the parameters (R151, R152; R38, R42 say no
instruction writes K or P). R151 and R152 are marked derived by the spec. -/
def Obligations.EveryCycleCompletesWithOneOutput : Prop :=
  ∀ s : State, ∃ t, step s = .next t ∧ t.trace = { diag := t.diag, tone := t.tone } :: s.trace ∧
    t.cycleNo = s.cycleNo + 1 ∧ t.keys = s.keys ∧ t.prog = s.prog ∧ t.params = s.params

/-- Every step keeps the invariant: memory stays the 4096 bytes in canonical form, the retained program within its bound,
one output per cycle (R65; the canonical form is the model's, log 8; the bound is `PROGRAM_START + length <= 4096`, R273,
which is R65's 3584 at the default PROGRAM_START). -/
def Obligations.EveryStepKeepsTheInvariant : Prop :=
  ∀ s t : State, s.Inv → step s = .next t → t.Inv

/-- The state after reset meets the invariant, and so does the state after power-on under any parameters (R65, R49,
R275). -/
def Obligations.ResetStateMeetsTheInvariant : Prop :=
  State.reset.Inv ∧ ∀ p : Params, (State.powerOn p).Inv

/-- The invariant holds in every state the host's operations reach from power-on under any parameters, in any order:
cycles, loads, resets, key and timer writes; with PROGRAM_START at 0x200 or above, its default among them, `P` is then at
most 3584 bytes (R65, R64). -/
def Obligations.EveryReachableStateMeetsTheInvariant : Prop :=
  ∀ s : State, Reachable s → s.Inv ∧ (0x200 ≤ s.params.programStart.toNat → s.prog.length ≤ 3584)

/-- The timers of a cycle: unless the cycle runs FX15, DT ends as one less, clamped at 0; unless it runs FX18, ST does,
and the tone request is made exactly when ST was 1 (R40, R147, R148; that it runs in diagnostic cycles too is D27). -/
def Obligations.TimersCountDownEveryCycle : Prop :=
  ∀ s : State, ∃ t, step s = .next t ∧
    (¬ (s.pc.toNat ≤ 0xFFE ∧ ∃ x, decodeOp s.fetchWord = some (.ldDt x)) → t.dt.toNat = s.dt.toNat - 1) ∧
    (¬ (s.pc.toNat ≤ 0xFFE ∧ ∃ x, decodeOp s.fetchWord = some (.ldSt x)) →
      t.st.toNat = s.st.toNat - 1 ∧ (t.tone = true ↔ s.st = 1#8))

/-- A timer written in execute is decremented in the same cycle: after FX15 the cycle ends with DT = max(v - 1, 0),
after FX18 with ST = max(v - 1, 0) and a tone request exactly when v = 1; after FX07 register X holds DT from before the
cycle's decrement (R149, which the spec marks derived). -/
def Obligations.TimerWrittenInExecuteCountsInTheSameCycle : Prop :=
  ∀ (s : State) (x : RegIdx), s.pc.toNat ≤ 0xFFE →
    (decodeOp s.fetchWord = some (.ldDt x) → ∃ t, step s = .next t ∧ t.dt.toNat = (s.reg x).toNat - 1) ∧
    (decodeOp s.fetchWord = some (.ldSt x) →
      ∃ t, step s = .next t ∧ t.st.toNat = (s.reg x).toNat - 1 ∧ (t.tone = true ↔ (s.reg x).toNat = 1)) ∧
    (decodeOp s.fetchWord = some (.ldFromDt x) →
      ∃ t, step s = .next t ∧ t.reg x = s.dt ∧ t.dt.toNat = s.dt.toNat - 1)

/-- The random input matters only to CXNN: two states that differ only in which random byte the cycle gets step to
states that differ only there, unless the fetched opcode is of family C (R153, which the spec marks derived; the index
of the random byte is the model's, log 7). -/
def Obligations.RandomByteMattersOnlyToRnd : Prop :=
  ∀ (s : State) (n : Nat), ¬ (s.pc.toNat ≤ 0xFFE ∧ opH s.fetchWord = 0xC#4) →
    ∃ t, step s = .next t ∧ step { s with cycleNo := n } = .next { t with cycleNo := n + 1 }

/-- The diagnostic of a cycle records the address of the instruction and the very opcode that was fetched; for FETCH_OOB
the opcode is absent and the address is the pc the fetch was tried at (R241, R242, whose record is the spec's own choice,
D3). -/
def Obligations.DiagnosticRecordsTheFetchedInstruction : Prop :=
  ∀ (s t : State) (d : Diag), step s = .next t → t.diag = some d →
    d.address = s.pc ∧ d.opcode = (if s.pc.toNat ≤ 0xFFE then some s.fetchWord else none)

/-- A store is seen by the next fetch, even of the bytes just written: after FX55 of two registers or more at `I`, a
fetch at `I` reads the opcode V0 * 256 + V1 (R84, R87, which the spec marks derived; D29). -/
def Obligations.StoreIsSeenByTheNextFetch : Prop :=
  ∀ (s : State) (x : RegIdx), 1 ≤ x.toNat → s.idx.toNat + x.toNat ≤ 0xFFF →
    ∃ t, exec (.stRegs x) s = .next t ∧
      (State.fetchWord { t with pc := s.idx }).toNat = (s.reg 0x0#4).toNat * 256 + (s.reg 0x1#4).toNat

/-! ### Who writes what (10_state R32 to R42, 20_memory R71) -/

/-- The stack and SP are written by 2NNN and 00EE only (R36, R37). -/
def Obligations.StackWrittenOnlyByCallAndRet : Prop :=
  ∀ (i : Instr) (s : State), i ≠ .ret → (∀ n, i ≠ .call n) →
    ∃ t, exec i s = .next t ∧ t.stack = s.stack ∧ t.sp = s.sp

/-- `I` is written by ANNN, FX1E and FX29 only; in particular no access through it changes it (R34, R88). -/
def Obligations.IndexWrittenOnlyByIndexInstructions : Prop :=
  ∀ (i : Instr) (s : State), (∀ n, i ≠ .ldIdx n) → (∀ x, i ≠ .addIdx x) → (∀ x, i ≠ .ldFont x) →
    ∃ t, exec i s = .next t ∧ t.idx = s.idx

/-- Memory is written by FX33 and FX55 only: every other instruction leaves every byte as it was (R71). -/
def Obligations.MemoryWrittenOnlyByStores : Prop :=
  ∀ (i : Instr) (s : State), (∀ x, i ≠ .ldBcd x) → (∀ x, i ≠ .stRegs x) →
    ∃ t, exec i s = .next t ∧ ∀ a, t.mem.read a = s.mem.read a

/-- The framebuffer is written by 00E0 and DXYN only (R39), DT by FX15 only and ST by FX18 only within execute (R40). -/
def Obligations.FramebufferAndTimersWrittenOnlyByTheirInstructions : Prop :=
  ∀ (i : Instr) (s : State), ∃ t, exec i s = .next t ∧
    (i ≠ .cls → (∀ x y n, i ≠ .drw x y n) → t.fb = s.fb) ∧
    ((∀ x, i ≠ .ldDt x) → t.dt = s.dt) ∧ ((∀ x, i ≠ .ldSt x) → t.st = s.st)

/-- A general register is written only where R33's table says: by the X selector, V0 to VX, or VF as a side effect of
8XY4, 8XY5, 8XY6, 8XY7, 8XYE and DXYN (R32, R33). -/
def Obligations.RegistersWrittenOnlyAsTheTableSays : Prop :=
  ∀ (i : Instr) (s : State) (r : RegIdx), writesReg i r = false → ∃ t, exec i s = .next t ∧ t.reg r = s.reg r

/-! ### Display (41_display) -/

/-- CLS turns every pixel off and changes nothing else; only the opcode 0x00E0 is CLS (R170; that no other opcode of
family 0 is CLS is strict decoding, the spec's own choice, D6). -/
def Obligations.ClearScreenTurnsEveryPixelOff : Prop :=
  (∀ w : Word, decodeOp w = some .cls ↔ w = 0x00E0#16) ∧
  ∀ s : State, ∃ t, exec .cls s = .next t ∧ (∀ px py, px < 64 → py < 32 → t.fb.lit px py = false) ∧
    t = { s with fb := t.fb }

/-- DXYN with its sprite in memory (or N = 0): each pixel ends as its old value XOR the sprite's bit on it, counted with
wraparound from (Vx mod 64, Vy mod 32) as they were before the draw; VF is 1 exactly when a set bit met a lit pixel, else
0; no other register and nothing else changes (R171, R172; bit 7 leftmost is D10, the old coordinates and N = 0 are
D11). -/
def Obligations.DrawXorsTheSpriteAndSetsCollision : Prop :=
  ∀ (s : State) (x y : RegIdx) (n : Nibble), n.toNat = 0 ∨ s.idx.toNat + n.toNat - 1 ≤ 0xFFF →
    ∃ t, exec (.drw x y n) s = .next t ∧
      (∀ px py, px < 64 → py < 32 →
        t.fb.lit px py = (s.fb.lit px py ^^
          spriteBit s.mem s.idx.toNat ((s.reg x).toNat % 64) ((s.reg y).toNat % 32) n.toNat px py)) ∧
      (t.reg vf = 1#8 ∨ t.reg vf = 0#8) ∧
      (t.reg vf = 1#8 ↔ ∃ px py, px < 64 ∧ py < 32 ∧ s.fb.lit px py = true ∧
        spriteBit s.mem s.idx.toNat ((s.reg x).toNat % 64) ((s.reg y).toNat % 32) n.toNat px py = true) ∧
      (∀ r, r ≠ vf → t.reg r = s.reg r) ∧ (∀ a, t.mem.read a = s.mem.read a) ∧
      t = { s with v := t.v, fb := t.fb }

/-- Drawing twice erases: with X and Y not F, two draws of the same sprite leave the framebuffer as it was, and the
second sets VF exactly when the first turned some pixel on (R173, which the spec marks derived). -/
def Obligations.DrawingTwiceErases : Prop :=
  ∀ (s : State) (x y : RegIdx) (n : Nibble), x ≠ vf → y ≠ vf → n.toNat = 0 ∨ s.idx.toNat + n.toNat - 1 ≤ 0xFFF →
    ∃ t u, exec (.drw x y n) s = .next t ∧ exec (.drw x y n) t = .next u ∧ u.fb = s.fb ∧
      (u.reg vf = 1#8 ↔ ∃ px py, px < 64 ∧ py < 32 ∧ s.fb.lit px py = false ∧ t.fb.lit px py = true)

/-! ### Control transfer (42_flow) -/

/-- 1NNN sets the pc to NNN, zero-extended, and changes nothing else, so at address NNN it jumps to itself (R181). -/
def Obligations.JumpSetsThePc : Prop :=
  ∀ (nnn : Addr) (s : State), decodeOp (0x1#4 ++ nnn) = some (.jp nnn) ∧
    ∃ t, exec (.jp nnn) s = .next t ∧ t.pc.toNat = nnn.toNat ∧ t.diag = s.diag ∧ t = { s with pc := t.pc }

/-- BNNN sets the pc to NNN + V0, at most 0x10FE and never masked, whatever its X digit, and changes nothing else (R183;
that the sum is not masked is D18). -/
def Obligations.JumpWithOffsetAddsV0 : Prop :=
  ∀ (nnn : Addr) (s : State), decodeOp (0xB#4 ++ nnn) = some (.jpV0 nnn) ∧
    ∃ t, exec (.jpV0 nnn) s = .next t ∧ t.pc.toNat = nnn.toNat + (s.reg 0x0#4).toNat ∧ t = { s with pc := t.pc }

/-- 2NNN with room on the stack pushes the post-fetch pc at S[SP], counts it, and jumps; no other entry and nothing else
changes (R182). -/
def Obligations.CallPushesTheReturnAddress : Prop :=
  ∀ (nnn : Addr) (s : State), s.sp.val < 16 →
    ∃ t, exec (.call nnn) s = .next t ∧ t.pc.toNat = nnn.toNat ∧ t.sp.val = s.sp.val + 1 ∧
      (∀ k : Fin 16, t.stack[k] = if k.val = s.sp.val then s.pc else s.stack[k]) ∧
      t = { s with pc := t.pc, stack := t.stack, sp := t.sp }

/-- 00EE with an entry on the stack takes it off and jumps to it; the entry keeps its value and nothing else changes
(R180, R36; that the entry is not cleared is D16). -/
def Obligations.ReturnPopsTheReturnAddress : Prop :=
  ∀ (s : State) (k : Fin 16), s.sp.val = k.val + 1 →
    ∃ t, exec .ret s = .next t ∧ t.pc = s.stack[k] ∧ t.sp.val = k.val ∧ t = { s with pc := t.pc, sp := t.sp }

/-- A call and then a return, wherever the subroutine has taken the pc and whatever it did to registers, memory and
screen, continue after the call with the stack pointer as it was (R180, R182, R184). -/
def Obligations.ReturnGoesBackAfterTheCall : Prop :=
  ∀ (nnn : Addr) (s : State), s.sp.val < 16 →
    ∃ t, exec (.call nnn) s = .next t ∧
      ∀ u : State, u.stack = t.stack → u.sp = t.sp →
        ∃ w, exec .ret u = .next w ∧ w.pc = s.pc ∧ w.sp = s.sp ∧ w = { u with pc := w.pc, sp := w.sp }

/-- A return on an empty stack and a call on a full one are reported and write nothing: the pc stays at the post-fetch
value, or goes back to the instruction under `hold` (R180, R182, R243; the policy is D4). -/
def Obligations.StackFailuresAreReportedAndWriteNothing : Prop :=
  (∀ s : State, s.sp.val = 0 →
    exec .ret s = .next { s with
      diag := some (.stackUnderflow (s.pc - 2#16) 0x00EE#16)
      pc := if s.params.failPc = .hold then s.pc - 2#16 else s.pc }) ∧
  (∀ (s : State) (nnn : Addr), s.sp.val = 16 →
    exec (.call nnn) s = .next { s with
      diag := some (.stackOverflow (s.pc - 2#16) (0x2#4 ++ nnn))
      pc := if s.params.failPc = .hold then s.pc - 2#16 else s.pc })

/-! ### Skips (43_skip) -/

/-- 3XNN skips (the pc moves by 2 more, modulo 2^16) exactly when Vx equals NN, 4XNN exactly when it differs; nothing
else changes (R191, R192). -/
def Obligations.SkipsOnAnImmediate : Prop :=
  ∀ (x : RegIdx) (nn : Byte) (s : State),
    (decodeOp (0x3#4 ++ x ++ nn) = some (.seImm x nn) ∧ ∃ t, exec (.seImm x nn) s = .next t ∧
      t.pc.toNat = (if (s.reg x).toNat = nn.toNat then (s.pc.toNat + 2) % 65536 else s.pc.toNat) ∧
      t = { s with pc := t.pc }) ∧
    (decodeOp (0x4#4 ++ x ++ nn) = some (.sneImm x nn) ∧ ∃ t, exec (.sneImm x nn) s = .next t ∧
      t.pc.toNat = (if (s.reg x).toNat = nn.toNat then s.pc.toNat else (s.pc.toNat + 2) % 65536) ∧
      t = { s with pc := t.pc })

/-- 5XY0 skips exactly when Vx equals Vy, 9XY0 exactly when they differ; with another low nibble both are unknown;
nothing else changes (R193, R194; the unknown low nibbles are strict decoding, the spec's own choice, D6). -/
def Obligations.SkipsOnTwoRegisters : Prop :=
  ∀ (x y n : BitVec 4) (s : State),
    (decodeOp (0x5#4 ++ x ++ y ++ n) = (if n = 0#4 then some (.seReg x y) else none) ∧
      ∃ t, exec (.seReg x y) s = .next t ∧
        t.pc.toNat = (if (s.reg x).toNat = (s.reg y).toNat then (s.pc.toNat + 2) % 65536 else s.pc.toNat) ∧
        t = { s with pc := t.pc }) ∧
    (decodeOp (0x9#4 ++ x ++ y ++ n) = (if n = 0#4 then some (.sneReg x y) else none) ∧
      ∃ t, exec (.sneReg x y) s = .next t ∧
        t.pc.toNat = (if (s.reg x).toNat = (s.reg y).toNat then s.pc.toNat else (s.pc.toNat + 2) % 65536) ∧
        t = { s with pc := t.pc })

/-- EX9E skips exactly when key Vx exists and is pressed, EXA1 exactly when it is not (a key index of 16 or more reads as
not pressed and is reported as KEY_RANGE, the instruction completing); nothing but the pc and that report changes (R195,
R196; the reading of a key that does not exist is R197, the spec's own choice, D13). -/
def Obligations.SkipsOnAKey : Prop :=
  ∀ (x : RegIdx) (s : State),
    (∃ t, exec (.skp x) s = .next t ∧
      t.pc = (if (s.reg x).toNat < 16 ∧ s.keys[(s.reg x).toNat]? = some true then s.pc + 2#16 else s.pc) ∧
      t.diag = (if 16 ≤ (s.reg x).toNat then some (.keyRange (s.pc - 2#16) (0xE#4 ++ x ++ 0x9E#8) (s.reg x))
        else s.diag) ∧ t = { s with pc := t.pc, diag := t.diag }) ∧
    (∃ t, exec (.sknp x) s = .next t ∧
      t.pc = (if (s.reg x).toNat < 16 ∧ s.keys[(s.reg x).toNat]? = some true then s.pc else s.pc + 2#16) ∧
      t.diag = (if 16 ≤ (s.reg x).toNat then some (.keyRange (s.pc - 2#16) (0xE#4 ++ x ++ 0xA1#8) (s.reg x))
        else s.diag) ∧ t = { s with pc := t.pc, diag := t.diag })

/-! ### Loads and arithmetic (44_alu) -/

/-- 6XNN loads NN, 7XNN adds NN modulo 256 and sets no flag, 8XY0 copies Vy: register X gets the value, every other
register, VF among them, and everything else is unchanged (R200, R201, R202). -/
def Obligations.LoadsAndAddImmediate : Prop :=
  ∀ (x y : RegIdx) (nn : Byte) (s : State),
    (decodeOp (0x6#4 ++ x ++ nn) = some (.ldImm x nn) ∧ ∃ t, exec (.ldImm x nn) s = .next t ∧
      t.reg x = nn ∧ (∀ r, r ≠ x → t.reg r = s.reg r) ∧ t = { s with v := t.v }) ∧
    (decodeOp (0x7#4 ++ x ++ nn) = some (.addImm x nn) ∧ ∃ t, exec (.addImm x nn) s = .next t ∧
      (t.reg x).toNat = ((s.reg x).toNat + nn.toNat) % 256 ∧ (∀ r, r ≠ x → t.reg r = s.reg r) ∧
      t = { s with v := t.v }) ∧
    (decodeOp (0x8#4 ++ x ++ y ++ 0x0#4) = some (.ldReg x y) ∧ ∃ t, exec (.ldReg x y) s = .next t ∧
      t.reg x = s.reg y ∧ (∀ r, r ≠ x → t.reg r = s.reg r) ∧ t = { s with v := t.v })

/-- 8XY1, 8XY2 and 8XY3 combine the bits of Vx and Vy into Vx and write no flag (R203, R204, R205; that VF is not written
is D19). -/
def Obligations.BitwiseOperationsSetNoFlag : Prop :=
  ∀ (x y : RegIdx) (s : State),
    (∃ t, exec (.orReg x y) s = .next t ∧
      (∀ k, k < 8 → (t.reg x).getLsbD k = ((s.reg x).getLsbD k || (s.reg y).getLsbD k)) ∧
      (∀ r, r ≠ x → t.reg r = s.reg r) ∧ t = { s with v := t.v }) ∧
    (∃ t, exec (.andReg x y) s = .next t ∧
      (∀ k, k < 8 → (t.reg x).getLsbD k = ((s.reg x).getLsbD k && (s.reg y).getLsbD k)) ∧
      (∀ r, r ≠ x → t.reg r = s.reg r) ∧ t = { s with v := t.v }) ∧
    (∃ t, exec (.xorReg x y) s = .next t ∧
      (∀ k, k < 8 → (t.reg x).getLsbD k = ((s.reg x).getLsbD k ^^ (s.reg y).getLsbD k)) ∧
      (∀ r, r ≠ x → t.reg r = s.reg r) ∧ t = { s with v := t.v })

/-- 8XY4: VF is 1 exactly when the sum exceeds 255, else 0, also when X = F; a destination that is not VF holds the sum
modulo 256; both operands are the old values, also when Y = F; nothing else changes (R206; that with X = F VF ends as the
flag, and that with Y = F its old value is added, is R213, the spec's own choice, D14, log 1). -/
def Obligations.AddRegistersSetsCarry : Prop :=
  ∀ (x y : RegIdx) (s : State), decodeOp (0x8#4 ++ x ++ y ++ 0x4#4) = some (.addReg x y) ∧
    ∃ t, exec (.addReg x y) s = .next t ∧
      (t.reg vf).toNat = (if (s.reg x).toNat + (s.reg y).toNat > 255 then 1 else 0) ∧
      (x ≠ vf → (t.reg x).toNat = ((s.reg x).toNat + (s.reg y).toNat) % 256) ∧
      (∀ r, r ≠ x → r ≠ vf → t.reg r = s.reg r) ∧ t = { s with v := t.v }

/-- 8XY5 and 8XY7: VF is 1 exactly when the minuend is strictly greater, else 0, also at equality and also when X = F; a
destination that is not VF holds the difference modulo 256; nothing else changes (R207, R209; VF = 0 at equality is the
spec's resolution C4; that with X = F VF ends as the flag, and that with Y = F its old value is subtracted, is R213, the
spec's own choice, D14; both in log 1). -/
def Obligations.SubtractRegistersSetsNoBorrow : Prop :=
  ∀ (x y : RegIdx) (s : State),
    (decodeOp (0x8#4 ++ x ++ y ++ 0x5#4) = some (.subReg x y) ∧ ∃ t, exec (.subReg x y) s = .next t ∧
      (t.reg vf).toNat = (if (s.reg x).toNat > (s.reg y).toNat then 1 else 0) ∧
      (x ≠ vf → (t.reg x).toNat = ((s.reg x).toNat + 256 - (s.reg y).toNat) % 256) ∧
      (∀ r, r ≠ x → r ≠ vf → t.reg r = s.reg r) ∧ t = { s with v := t.v }) ∧
    (decodeOp (0x8#4 ++ x ++ y ++ 0x7#4) = some (.subnReg x y) ∧ ∃ t, exec (.subnReg x y) s = .next t ∧
      (t.reg vf).toNat = (if (s.reg y).toNat > (s.reg x).toNat then 1 else 0) ∧
      (x ≠ vf → (t.reg x).toNat = ((s.reg y).toNat + 256 - (s.reg x).toNat) % 256) ∧
      (∀ r, r ≠ x → r ≠ vf → t.reg r = s.reg r) ∧ t = { s with v := t.v })

/-- 8XY6 and 8XYE, with any Y: X not F holds its old value shifted by one and VF the bit shifted out; with X = F the
shift acts on the flag, so VF ends as 0 for 8FY6, and as 2 or 0 by its old bit 7 for 8FYE; nothing else changes (R208,
R210; that Y is not read is D19, the order of the writes with X = F is R213, the spec's own choice, D14). -/
def Obligations.ShiftsByOne : Prop :=
  ∀ (x y : RegIdx) (s : State),
    (decodeOp (0x8#4 ++ x ++ y ++ 0x6#4) = some (.shr x) ∧ ∃ t, exec (.shr x) s = .next t ∧
      (x ≠ vf → (t.reg x).toNat = (s.reg x).toNat / 2 ∧ (t.reg vf).toNat = (s.reg x).toNat % 2) ∧
      (x = vf → (t.reg vf).toNat = 0) ∧
      (∀ r, r ≠ x → r ≠ vf → t.reg r = s.reg r) ∧ t = { s with v := t.v }) ∧
    (decodeOp (0x8#4 ++ x ++ y ++ 0xE#4) = some (.shl x) ∧ ∃ t, exec (.shl x) s = .next t ∧
      (x ≠ vf → (t.reg x).toNat = (s.reg x).toNat * 2 % 256 ∧ (t.reg vf).toNat = (s.reg x).toNat / 128) ∧
      (x = vf → (t.reg vf).toNat = (if 128 ≤ (s.reg vf).toNat then 2 else 0)) ∧
      (∀ r, r ≠ x → r ≠ vf → t.reg r = s.reg r) ∧ t = { s with v := t.v })

/-- CXNN loads some byte with 0 wherever NN has 0, namely the cycle's random byte under the mask, whatever that byte is;
nothing else changes (R211; the random byte is a free value, log 2). -/
def Obligations.RandomByteUnderAMask : Prop :=
  ∀ (x : RegIdx) (nn : Byte) (s : State), decodeOp (0xC#4 ++ x ++ nn) = some (.rnd x nn) ∧
    ∃ t, exec (.rnd x nn) s = .next t ∧
      (∀ k, nn.getLsbD k = false → (t.reg x).getLsbD k = false) ∧
      (∀ k, nn.getLsbD k = true → (t.reg x).getLsbD k = (Config.randByte s.cycleNo).getLsbD k) ∧
      (∀ r, r ≠ x → t.reg r = s.reg r) ∧ t = { s with v := t.v }

/-! ### Index and memory (45_index_memory) -/

/-- ANNN sets `I` to NNN, FX1E adds Vx to it modulo 2^16 without a flag; nothing else changes (R220, R221). -/
def Obligations.IndexLoadAndAdd : Prop :=
  ∀ (nnn : Addr) (x : RegIdx) (s : State),
    (decodeOp (0xA#4 ++ nnn) = some (.ldIdx nnn) ∧ ∃ t, exec (.ldIdx nnn) s = .next t ∧
      t.idx.toNat = nnn.toNat ∧ t = { s with idx := t.idx }) ∧
    (decodeOp (0xF#4 ++ x ++ 0x1E#8) = some (.addIdx x) ∧ ∃ t, exec (.addIdx x) s = .next t ∧
      t.idx.toNat = (s.idx.toNat + (s.reg x).toNat) % 65536 ∧ t = { s with idx := t.idx })

/-- FX29 points `I` at the glyph of Vx's low nibble, FONT_BASE + 5 times it, and changes nothing else; after power-on the
five bytes there are that glyph of FONT_TABLE (R222, R18). It holds for any FONT_BASE and FONT_TABLE (D8, D9). -/
def Obligations.FontPointer : Prop :=
  ∀ (x : RegIdx) (s : State),
    ∃ t, exec (.ldFont x) s = .next t ∧ t.idx.toNat = s.params.fontBase.val + 5 * ((s.reg x).toNat % 16) ∧
      t = { s with idx := t.idx } ∧
      ∀ k, k < 5 → s.params.fontTable[5 * ((s.reg x).toNat % 16) + k]? =
        some ((State.powerOn s.params).mem.read (t.idx.toNat + k))

/-- FX33 in range stores three bytes of 0 to 9 at `I`, `I + 1`, `I + 2` that are the decimal digits of Vx, hundreds
first; every other byte and everything else is unchanged (R223). -/
def Obligations.DecimalDigitsAreStored : Prop :=
  ∀ (x : RegIdx) (s : State), s.idx.toNat + 2 ≤ 0xFFF →
    ∃ t, exec (.ldBcd x) s = .next t ∧
      (t.mem.read (s.indexAddr 0)).toNat * 100 + (t.mem.read (s.indexAddr 1)).toNat * 10 +
        (t.mem.read (s.indexAddr 2)).toNat = (s.reg x).toNat ∧
      (∀ k, k < 3 → (t.mem.read (s.indexAddr k)).toNat ≤ 9) ∧
      (∀ a, a < s.indexAddr 0 ∨ s.indexAddr 0 + 3 ≤ a → t.mem.read a = s.mem.read a) ∧ t = { s with mem := t.mem }

/-- FX55 in range stores V0 to VX at `I`, ..., `I + X`; every other byte and everything else, `I` among it, is unchanged
(R224; that `I` is unchanged is D15). -/
def Obligations.RegistersAreStored : Prop :=
  ∀ (x : RegIdx) (s : State), s.idx.toNat + x.toNat ≤ 0xFFF →
    ∃ t, exec (.stRegs x) s = .next t ∧
      (∀ k : RegIdx, k.toNat ≤ x.toNat → t.mem.read (s.indexAddr k.toNat) = s.reg k) ∧
      (∀ a, a < s.indexAddr 0 ∨ s.indexAddr 0 + (x.toNat + 1) ≤ a → t.mem.read a = s.mem.read a) ∧
      t = { s with mem := t.mem }

/-- FX65 in range loads V0 to VX from `I`, ..., `I + X`; the registers above X, memory and everything else, `I` among it,
are unchanged (R225; that `I` is unchanged is D15). -/
def Obligations.RegistersAreLoaded : Prop :=
  ∀ (x : RegIdx) (s : State), s.idx.toNat + x.toNat ≤ 0xFFF →
    ∃ t, exec (.ldRegs x) s = .next t ∧
      (∀ k : RegIdx, k.toNat ≤ x.toNat → t.reg k = s.mem.read (s.indexAddr k.toNat)) ∧
      (∀ r : RegIdx, x.toNat < r.toNat → t.reg r = s.reg r) ∧ (∀ a, t.mem.read a = s.mem.read a) ∧
      t = { s with v := t.v }

/-- What FX55 stores FX65 loads back: after a store of V0 to VX, whatever happens to the registers, a load of V0 to VX at
the same `I` gives them their values at the store (R224, R225, R79). -/
def Obligations.LoadGivesBackWhatWasStored : Prop :=
  ∀ (x : RegIdx) (s : State), s.idx.toNat + x.toNat ≤ 0xFFF →
    ∃ t, exec (.stRegs x) s = .next t ∧
      ∀ u : State, u.mem = t.mem → u.idx = s.idx →
        ∃ w, exec (.ldRegs x) u = .next w ∧ ∀ k : RegIdx, k.toNat ≤ x.toNat → w.reg k = s.reg k

/-- A data range that leaves memory: DXYN with N > 0, FX33, FX55 and FX65 report MEM_OOB with max(I, 0x1000) and change
nothing, not even the part in range; the pc stays post-fetch, or goes back to the instruction under `hold` (R77, R243,
the spec's own choices D5 and D4). -/
def Obligations.DataOutOfRangeChangesNothing : Prop :=
  ∀ (i : Instr) (s : State),
    ((∃ x y n, i = .drw x y n ∧ n.toNat ≠ 0 ∧ s.idx.toNat + n.toNat - 1 > 0xFFF) ∨
      (∃ x, i = .ldBcd x ∧ s.idx.toNat + 2 > 0xFFF) ∨
      (∃ x : RegIdx, (i = .stRegs x ∨ i = .ldRegs x) ∧ s.idx.toNat + x.toNat > 0xFFF)) →
    exec i s = .next { s with
      diag := some (.memOob (s.pc - 2#16) (encodeWord i) (max s.idx.toNat 0x1000))
      pc := if s.params.failPc = .hold then s.pc - 2#16 else s.pc }

/-! ### Timers and keys (46_timers_keys) -/

/-- FX07 copies DT into Vx, FX15 copies Vx into DT, FX18 copies Vx into ST; nothing else changes in execute, and at the
end of the cycle the timer written holds max(Vx - 1, 0), with a tone request from FX18 exactly when Vx = 1, and DT is one
less, clamped at 0, after FX07 (R230, R231, R232; the clauses on the end of the cycle are R147, R148 and R149, which the
spec marks derived). -/
def Obligations.TimerTransfers : Prop :=
  ∀ (x : RegIdx) (s : State),
    (decodeOp (0xF#4 ++ x ++ 0x07#8) = some (.ldFromDt x) ∧ ∃ t, exec (.ldFromDt x) s = .next t ∧ t.reg x = s.dt ∧
      (∀ r, r ≠ x → t.reg r = s.reg r) ∧ t = { s with v := t.v } ∧ t.endCycle.dt.toNat = s.dt.toNat - 1) ∧
    (decodeOp (0xF#4 ++ x ++ 0x15#8) = some (.ldDt x) ∧ ∃ t, exec (.ldDt x) s = .next t ∧ t.dt = s.reg x ∧
      t = { s with dt := t.dt } ∧ t.endCycle.dt.toNat = (s.reg x).toNat - 1) ∧
    (decodeOp (0xF#4 ++ x ++ 0x18#8) = some (.ldSt x) ∧ ∃ t, exec (.ldSt x) s = .next t ∧ t.st = s.reg x ∧
      t = { s with st := t.st } ∧ t.endCycle.st.toNat = (s.reg x).toNat - 1 ∧ (t.endCycle.tone = true ↔ (s.reg x).toNat = 1))

/-- FX0A stores the lowest-numbered pressed key in Vx and goes on; with no key pressed it changes nothing but the pc,
which goes back to the instruction (R233; that a key held before counts is D30). -/
def Obligations.KeyWaitTakesTheLowestKeyOrRepeats : Prop :=
  ∀ (x : RegIdx) (s : State),
    (∀ k : Fin 16, s.keys[k] = true → (∀ j : Fin 16, j < k → s.keys[j] = false) →
      ∃ t, exec (.ldKey x) s = .next t ∧ (t.reg x).toNat = k.val ∧ (∀ r, r ≠ x → t.reg r = s.reg r) ∧
        t = { s with v := t.v }) ∧
    ((∀ k : Fin 16, s.keys[k] = false) → exec (.ldKey x) s = .next { s with pc := s.pc - 2#16 })

/-- A waiting FX0A fetches itself again: when the cycle runs FX0A and no key is pressed, the pc, memory and so the next
opcode are as they were, and only the timers and outputs move on (R233, R255). -/
def Obligations.KeyWaitRefetchesItself : Prop :=
  ∀ (s : State) (x : RegIdx), s.pc.toNat ≤ 0xFFE → decodeOp s.fetchWord = some (.ldKey x) →
    (∀ k : Fin 16, s.keys[k] = false) →
    ∃ t, step s = .next t ∧ t.pc = s.pc ∧ t.fetchWord = s.fetchWord ∧ t.diag = none ∧
      t = { s with diag := t.diag, dt := t.dt, st := t.st, tone := t.tone, trace := t.trace, cycleNo := t.cycleNo }

/-! ### Reset, load and the host (70_reset, 10_state) -/

/-- After `reset()` each item holds the value of R49, whatever FONT_BASE, PROGRAM_START and FONT_TABLE are: registers,
`I`, stack, SP, timers, keypad and framebuffer 0, the pc at PROGRAM_START, memory the font at FONT_BASE, `P` from
PROGRAM_START and 0 elsewhere, `P` unchanged (R49). A program copied over the font, which can only happen with
PROGRAM_START below 0x200, stands there (R270, steps 2 and 3 in their order; log 4). The state after power-on is the reset
with `P` empty (R275, the spec's own choice, D25), and `State.reset` is it under the defaults. The premise on `P` is part
of the invariant of R65, stated above. -/
def Obligations.ResetLeavesTheResetValues : Prop :=
  (∀ p : Params, (State.powerOn p).params = p ∧ (State.powerOn p).prog = [] ∧
    (State.powerOn p).hostReset = State.powerOn p) ∧ State.powerOn Params.default = State.reset ∧
  ∀ s : State, progOk s.params s.prog = true →
    (∀ r, s.hostReset.reg r = 0#8) ∧ s.hostReset.idx = 0#16 ∧ s.hostReset.pc.toNat = s.params.programStart.toNat ∧
    (∀ k : Fin 16, s.hostReset.stack[k] = 0#16) ∧ s.hostReset.sp.val = 0 ∧ s.hostReset.dt = 0#8 ∧
    s.hostReset.st = 0#8 ∧ (∀ k : Fin 16, s.hostReset.keys[k] = false) ∧
    (∀ px py, px < 64 → py < 32 → s.hostReset.fb.lit px py = false) ∧
    (∀ j (h : j < s.prog.length), s.hostReset.mem.read (s.params.programStart.toNat + j) = s.prog[j]) ∧
    (∀ j (h : j < 80), 0x200 ≤ s.params.programStart.toNat ∨ s.params.fontBase.val + j < s.params.programStart.toNat ∨
        s.params.programStart.toNat + s.prog.length ≤ s.params.fontBase.val + j →
      s.hostReset.mem.read (s.params.fontBase.val + j) = s.params.fontTable[j]) ∧
    (∀ a, a < 4096 → ¬ (s.params.fontBase.val ≤ a ∧ a < s.params.fontBase.val + 80) →
      ¬ (s.params.programStart.toNat ≤ a ∧ a < s.params.programStart.toNat + s.prog.length) →
      s.hostReset.mem.read a = 0#8) ∧
    s.hostReset.prog = s.prog ∧ s.hostReset.params = s.params

/-- Reset is idempotent, and what it leaves of the block's items depends on `P` and the constants FONT_BASE,
PROGRAM_START and FONT_TABLE alone (R271, which the spec marks derived; the trace, the policy and the cycle count are not
items of the block and are not reset, log 11). -/
def Obligations.ResetIsIdempotentAndDependsOnlyOnP : Prop :=
  (∀ s : State, s.hostReset.hostReset = s.hostReset) ∧
  ∀ s u : State, s.prog = u.prog → s.params.fontBase = u.params.fontBase →
    s.params.programStart = u.params.programStart → s.params.fontTable = u.params.fontTable →
    s.hostReset = { u.hostReset with params := s.params, trace := s.trace, cycleNo := s.cycleNo }

/-- `loadProgram` succeeds exactly on a program that is not empty and fits from PROGRAM_START, that is on 1 to 3584 bytes
at the default 0x200; then `P` is those bytes and the state is the reset with them loaded; on failure nothing changes, `P`
included (R273; `P` on failure is D33; the default is the spec's own choice, D8, and the statement holds for any
PROGRAM_START, log 4). -/
def Obligations.LoadProgramSucceedsExactlyWhenItFits : Prop :=
  ∀ (s : State) (bytes : List Byte),
    (1 ≤ bytes.length ∧ s.params.programStart.toNat + bytes.length ≤ 4096 →
      (s.loadProgram bytes).1 = .success ∧ (s.loadProgram bytes).2 = State.hostReset { s with prog := bytes } ∧
      (s.loadProgram bytes).2.prog = bytes ∧
      ∀ k (h : k < bytes.length), (s.loadProgram bytes).2.mem.read (s.params.programStart.toNat + k) = bytes[k]) ∧
    (bytes.length = 0 ∨ 4096 < s.params.programStart.toNat + bytes.length → s.loadProgram bytes = (.failure, s)) ∧
    (s.params.programStart = 0x200#12 →
      ((s.loadProgram bytes).1 = .success ↔ 1 ≤ bytes.length ∧ bytes.length ≤ 3584))

/-- `setKey`: a code of 16 or more changes nothing; otherwise K[code] becomes the given state and no other key and nothing
else changes (R53). -/
def Obligations.SetKeyWritesOneKey : Prop :=
  ∀ (s : State) (code : Nat) (p : Bool),
    (16 ≤ code → s.setKey code p = s) ∧
    (code < 16 → (∀ k : Fin 16, (s.setKey code p).keys[k] = if k.val = code then p else s.keys[k]) ∧
      s.setKey code p = { s with keys := (s.setKey code p).keys })

/-- `writeTimers` sets DT and ST and nothing else (R62, the spec's own choice D22); `getRegister` and `isKeyDown` read a
register or key that exists, and 0 or false beyond (R54, R55, D23). -/
def Obligations.HostTimerWriteAndGetters : Prop :=
  ∀ s : State, (∀ d t, s.writeTimers d t = { s with dt := d, st := t }) ∧
    (∀ r : RegIdx, s.getRegister r.toNat = s.reg r) ∧ (∀ k, 16 ≤ k → s.getRegister k = 0#8) ∧
    (∀ k : Fin 16, s.isKeyDown k.val = s.keys[k]) ∧ (∀ k, 16 ≤ k → s.isKeyDown k = false)

/-- `peekOpcode(a)` is M[a] * 256 + M[a + 1] when the second byte exists, and 0 otherwise (R59). -/
def Obligations.PeekOpcodeReadsBigEndianOrZero : Prop :=
  ∀ (s : State) (a : Nat),
    (a + 1 ≤ 0xFFF → (s.peekOpcode a).toNat = (s.mem.read a).toNat * 256 + (s.mem.read (a + 1)).toNat) ∧
    (a + 1 > 0xFFF → s.peekOpcode a = 0#16)

/-- The views of the host: `getMemory` is the 4096 bytes, `getFramebuffer` the 2048 pixels with FB[y][x] at y*64 + x,
`getStack` all 16 entries (R57, R58, R61; the flat order is the spec's own choice, D12). -/
def Obligations.HostViewsShowTheState : Prop :=
  ∀ s : State, s.getMemory.length = 4096 ∧ (∀ a, a < 4096 → s.getMemory[a]? = some (s.mem.read a)) ∧
    s.getFramebuffer.length = 2048 ∧
    (∀ x y, x < 64 → y < 32 → s.getFramebuffer[y * 64 + x]? = some (s.fb.lit x y)) ∧
    s.getStack.length = 16 ∧ ∀ k : Fin 16, s.getStack[k.val]? = some s.stack[k]
end

