-- ==== Sys2Proof/Laws/Decode.lean ====
section
/-!
SUPPORT. The decode fields of a word built from its fields (30_encoding R101, R102), and that operand types make every
instruction well formed.
-/
namespace Sys2Proof

/-! ### Words and fields as numbers -/

theorem append_toNat {m n : Nat} (x : BitVec m) (y : BitVec n) : (x ++ y).toNat = x.toNat * 2 ^ n + y.toNat := by
  rw [BitVec.toNat_append, ← Nat.shiftLeft_add_eq_or_of_lt y.isLt, Nat.shiftLeft_eq]

theorem toNat_formatA (h : BitVec 4) (a : BitVec 12) : (h ++ a : Word).toNat = h.toNat * 4096 + a.toNat :=
  append_toNat h a

theorem toNat_formatXB (h x : BitVec 4) (b : Byte) :
    (h ++ x ++ b : Word).toNat = h.toNat * 4096 + x.toNat * 256 + b.toNat := by
  have h1 := append_toNat (h ++ x) b
  have h2 := append_toNat h x
  have : (h ++ x ++ b : Word).toNat = (h ++ x).toNat * 2 ^ 8 + b.toNat := h1
  rw [this, h2]; omega

theorem toNat_formatXY (h x y f : BitVec 4) :
    (h ++ x ++ y ++ f : Word).toNat = h.toNat * 4096 + x.toNat * 256 + y.toNat * 16 + f.toNat := by
  have h1 := append_toNat (h ++ x ++ y) f
  have h2 := append_toNat (h ++ x) y
  have h3 := append_toNat h x
  have : (h ++ x ++ y ++ f : Word).toNat = (h ++ x ++ y).toNat * 2 ^ 4 + f.toNat := h1
  rw [this, h2, h3]; omega

theorem opH_toNat (w : Word) : (opH w).toNat = w.toNat / 4096 := by
  have := w.isLt; simp [opH, Nat.shiftRight_eq_div_pow]; omega
theorem opX_toNat (w : Word) : (opX w).toNat = w.toNat / 256 % 16 := by simp [opX, Nat.shiftRight_eq_div_pow]
theorem opY_toNat (w : Word) : (opY w).toNat = w.toNat / 16 % 16 := by simp [opY, Nat.shiftRight_eq_div_pow]
theorem opN_toNat (w : Word) : (opN w).toNat = w.toNat % 16 := by simp [opN]
theorem opNN_toNat (w : Word) : (opNN w).toNat = w.toNat % 256 := by simp [opNN]
theorem opNNN_toNat (w : Word) : (opNNN w).toNat = w.toNat % 4096 := by simp [opNNN]

/-! ### The fields of each format -/

@[simp] theorem opH_formatA (h : BitVec 4) (a : Addr) : opH (h ++ a) = h := by
  apply BitVec.eq_of_toNat_eq; rw [opH_toNat, toNat_formatA]; omega
@[simp] theorem opNNN_formatA (h : BitVec 4) (a : Addr) : opNNN (h ++ a) = a := by
  apply BitVec.eq_of_toNat_eq; rw [opNNN_toNat, toNat_formatA]; omega

@[simp] theorem opH_formatXB (h x : BitVec 4) (b : Byte) : opH (h ++ x ++ b) = h := by
  apply BitVec.eq_of_toNat_eq; rw [opH_toNat, toNat_formatXB]; omega
@[simp] theorem opX_formatXB (h x : BitVec 4) (b : Byte) : opX (h ++ x ++ b) = x := by
  apply BitVec.eq_of_toNat_eq; rw [opX_toNat, toNat_formatXB]; omega
@[simp] theorem opNN_formatXB (h x : BitVec 4) (b : Byte) : opNN (h ++ x ++ b) = b := by
  apply BitVec.eq_of_toNat_eq; rw [opNN_toNat, toNat_formatXB]; omega

@[simp] theorem opH_formatXY (h x y f : BitVec 4) : opH (h ++ x ++ y ++ f) = h := by
  apply BitVec.eq_of_toNat_eq; rw [opH_toNat, toNat_formatXY]; omega
@[simp] theorem opX_formatXY (h x y f : BitVec 4) : opX (h ++ x ++ y ++ f) = x := by
  apply BitVec.eq_of_toNat_eq; rw [opX_toNat, toNat_formatXY]; omega
@[simp] theorem opY_formatXY (h x y f : BitVec 4) : opY (h ++ x ++ y ++ f) = y := by
  apply BitVec.eq_of_toNat_eq; rw [opY_toNat, toNat_formatXY]; omega
@[simp] theorem opN_formatXY (h x y f : BitVec 4) : opN (h ++ x ++ y ++ f) = f := by
  apply BitVec.eq_of_toNat_eq; rw [opN_toNat, toNat_formatXY]; omega

/-! ### The masks of the opcode table, as conditions on fields -/

/-- Mask 0xF000 reads the family. -/
theorem mask_F000 (w : Word) (h : BitVec 4) : w &&& 0xF000#16 = h ++ 0#12 ↔ opH w = h := by
  have e : ∀ w : Word, w &&& 0xF000#16 = opH w ++ 0#12 := by
    intro w
    apply BitVec.eq_of_getLsbD_eq
    intro i hi
    have := BitVec.getLsbD_append (x := opH w) (y := 0#12) (i := i)
    rw [show (opH w ++ 0#12 : Word).getLsbD i = _ from this]
    interval_cases i <;> simp [opH]
  rw [e]
  constructor
  · intro h'; have := congrArg opH h'; simpa using this
  · rintro rfl; rfl

/-- Mask 0xF00F reads the family and the low nibble. -/
theorem mask_F00F (w : Word) (h f : BitVec 4) :
    w &&& 0xF00F#16 = h ++ 0#4 ++ 0#4 ++ f ↔ opH w = h ∧ opN w = f := by
  have e : ∀ w : Word, w &&& 0xF00F#16 = opH w ++ 0#4 ++ 0#4 ++ opN w := by
    intro w
    apply BitVec.eq_of_getLsbD_eq
    intro i hi
    have h1 := BitVec.getLsbD_append (x := opH w ++ 0#4 ++ 0#4) (y := opN w) (i := i)
    rw [show (opH w ++ 0#4 ++ 0#4 ++ opN w : Word).getLsbD i = _ from h1, BitVec.getLsbD_append, BitVec.getLsbD_append]
    interval_cases i <;> simp [opH, opN]
  rw [e]
  constructor
  · intro h'; exact ⟨by simpa using congrArg opH h', by simpa using congrArg opN h'⟩
  · rintro ⟨rfl, rfl⟩; rfl

/-- Mask 0xF0FF reads the family and the low byte. -/
theorem mask_F0FF (w : Word) (h : BitVec 4) (b : Byte) :
    w &&& 0xF0FF#16 = h ++ 0#4 ++ b ↔ opH w = h ∧ opNN w = b := by
  have e : ∀ w : Word, w &&& 0xF0FF#16 = opH w ++ 0#4 ++ opNN w := by
    intro w
    apply BitVec.eq_of_getLsbD_eq
    intro i hi
    have h1 := BitVec.getLsbD_append (x := opH w ++ 0#4) (y := opNN w) (i := i)
    rw [show (opH w ++ 0#4 ++ opNN w : Word).getLsbD i = _ from h1, BitVec.getLsbD_append]
    interval_cases i <;> simp [opH, opNN]
  rw [e]
  constructor
  · intro h'; exact ⟨by simpa using congrArg opH h', by simpa using congrArg opNN h'⟩
  · rintro ⟨rfl, rfl⟩; rfl

/-! ### Bytes -/

/-- The bytes of a word are its halves, high first (20_memory R74). -/
theorem opcodeOf_bytes (w : Word) : opcodeOf (w.extractLsb' 8 8) (w.extractLsb' 0 8) = w := by
  apply BitVec.eq_of_toNat_eq
  have := append_toNat (w.extractLsb' 8 8) (w.extractLsb' 0 8)
  rw [show (opcodeOf (w.extractLsb' 8 8) (w.extractLsb' 0 8)).toNat = _ from this]
  have := w.isLt
  simp [Nat.shiftRight_eq_div_pow]; omega

/-- The opcode of two bytes, as a number (40_cycle R141). -/
theorem opcodeOf_toNat (hi lo : Byte) : (opcodeOf hi lo).toNat = hi.toNat * 256 + lo.toNat := append_toNat hi lo

/-! ### Well-formedness -/

/-- The operand types are as wide as the fields, so every instruction is well formed. -/
theorem Instr.wellFormed_all (i : Instr) : i.wellFormed = true := by
  cases i <;> simp [Instr.wellFormed, WellFormed.reg, WellFormed.addr, WellFormed.byte, WellFormed.count] <;> omega

end Sys2Proof
end

