-- ==== Sys2Proof/Laws/State.lean ====
section
/-!
SUPPORT. One lemma per field per named update of the state, each true by rfl, so that no later proof unfolds a record
update.
-/
namespace Sys2Proof.Machine

/-! ### `State.setReg` -/

@[simp] theorem State.setReg_v (s : State) (r : RegIdx) (b : Byte) : (s.setReg r b).v = s.v.set r.toNat b r.isLt := rfl
@[simp] theorem State.setReg_idx (s : State) (r : RegIdx) (b : Byte) : (s.setReg r b).idx = s.idx := rfl
@[simp] theorem State.setReg_pc (s : State) (r : RegIdx) (b : Byte) : (s.setReg r b).pc = s.pc := rfl
@[simp] theorem State.setReg_stack (s : State) (r : RegIdx) (b : Byte) : (s.setReg r b).stack = s.stack := rfl
@[simp] theorem State.setReg_sp (s : State) (r : RegIdx) (b : Byte) : (s.setReg r b).sp = s.sp := rfl
@[simp] theorem State.setReg_dt (s : State) (r : RegIdx) (b : Byte) : (s.setReg r b).dt = s.dt := rfl
@[simp] theorem State.setReg_st (s : State) (r : RegIdx) (b : Byte) : (s.setReg r b).st = s.st := rfl
@[simp] theorem State.setReg_keys (s : State) (r : RegIdx) (b : Byte) : (s.setReg r b).keys = s.keys := rfl
@[simp] theorem State.setReg_fb (s : State) (r : RegIdx) (b : Byte) : (s.setReg r b).fb = s.fb := rfl
@[simp] theorem State.setReg_mem (s : State) (r : RegIdx) (b : Byte) : (s.setReg r b).mem = s.mem := rfl
@[simp] theorem State.setReg_prog (s : State) (r : RegIdx) (b : Byte) : (s.setReg r b).prog = s.prog := rfl
@[simp] theorem State.setReg_params (s : State) (r : RegIdx) (b : Byte) : (s.setReg r b).params = s.params := rfl
@[simp] theorem State.setReg_diag (s : State) (r : RegIdx) (b : Byte) : (s.setReg r b).diag = s.diag := rfl
@[simp] theorem State.setReg_tone (s : State) (r : RegIdx) (b : Byte) : (s.setReg r b).tone = s.tone := rfl
@[simp] theorem State.setReg_trace (s : State) (r : RegIdx) (b : Byte) : (s.setReg r b).trace = s.trace := rfl
@[simp] theorem State.setReg_cycleNo (s : State) (r : RegIdx) (b : Byte) : (s.setReg r b).cycleNo = s.cycleNo := rfl

/-! ### `State.setFlag` -/

@[simp] theorem State.setFlag_v (s : State) (b : Byte) : (s.setFlag b).v = s.v.set vf.toNat b vf.isLt := rfl
@[simp] theorem State.setFlag_idx (s : State) (b : Byte) : (s.setFlag b).idx = s.idx := rfl
@[simp] theorem State.setFlag_pc (s : State) (b : Byte) : (s.setFlag b).pc = s.pc := rfl
@[simp] theorem State.setFlag_stack (s : State) (b : Byte) : (s.setFlag b).stack = s.stack := rfl
@[simp] theorem State.setFlag_sp (s : State) (b : Byte) : (s.setFlag b).sp = s.sp := rfl
@[simp] theorem State.setFlag_dt (s : State) (b : Byte) : (s.setFlag b).dt = s.dt := rfl
@[simp] theorem State.setFlag_st (s : State) (b : Byte) : (s.setFlag b).st = s.st := rfl
@[simp] theorem State.setFlag_keys (s : State) (b : Byte) : (s.setFlag b).keys = s.keys := rfl
@[simp] theorem State.setFlag_fb (s : State) (b : Byte) : (s.setFlag b).fb = s.fb := rfl
@[simp] theorem State.setFlag_mem (s : State) (b : Byte) : (s.setFlag b).mem = s.mem := rfl
@[simp] theorem State.setFlag_prog (s : State) (b : Byte) : (s.setFlag b).prog = s.prog := rfl
@[simp] theorem State.setFlag_params (s : State) (b : Byte) : (s.setFlag b).params = s.params := rfl
@[simp] theorem State.setFlag_diag (s : State) (b : Byte) : (s.setFlag b).diag = s.diag := rfl
@[simp] theorem State.setFlag_tone (s : State) (b : Byte) : (s.setFlag b).tone = s.tone := rfl
@[simp] theorem State.setFlag_trace (s : State) (b : Byte) : (s.setFlag b).trace = s.trace := rfl
@[simp] theorem State.setFlag_cycleNo (s : State) (b : Byte) : (s.setFlag b).cycleNo = s.cycleNo := rfl

/-! ### `State.setRegs` -/

@[simp] theorem State.setRegs_v (s : State) (bs : List Byte) : (s.setRegs bs).v = setRegsFrom s.v 0 bs := rfl
@[simp] theorem State.setRegs_idx (s : State) (bs : List Byte) : (s.setRegs bs).idx = s.idx := rfl
@[simp] theorem State.setRegs_pc (s : State) (bs : List Byte) : (s.setRegs bs).pc = s.pc := rfl
@[simp] theorem State.setRegs_stack (s : State) (bs : List Byte) : (s.setRegs bs).stack = s.stack := rfl
@[simp] theorem State.setRegs_sp (s : State) (bs : List Byte) : (s.setRegs bs).sp = s.sp := rfl
@[simp] theorem State.setRegs_dt (s : State) (bs : List Byte) : (s.setRegs bs).dt = s.dt := rfl
@[simp] theorem State.setRegs_st (s : State) (bs : List Byte) : (s.setRegs bs).st = s.st := rfl
@[simp] theorem State.setRegs_keys (s : State) (bs : List Byte) : (s.setRegs bs).keys = s.keys := rfl
@[simp] theorem State.setRegs_fb (s : State) (bs : List Byte) : (s.setRegs bs).fb = s.fb := rfl
@[simp] theorem State.setRegs_mem (s : State) (bs : List Byte) : (s.setRegs bs).mem = s.mem := rfl
@[simp] theorem State.setRegs_prog (s : State) (bs : List Byte) : (s.setRegs bs).prog = s.prog := rfl
@[simp] theorem State.setRegs_params (s : State) (bs : List Byte) : (s.setRegs bs).params = s.params := rfl
@[simp] theorem State.setRegs_diag (s : State) (bs : List Byte) : (s.setRegs bs).diag = s.diag := rfl
@[simp] theorem State.setRegs_tone (s : State) (bs : List Byte) : (s.setRegs bs).tone = s.tone := rfl
@[simp] theorem State.setRegs_trace (s : State) (bs : List Byte) : (s.setRegs bs).trace = s.trace := rfl
@[simp] theorem State.setRegs_cycleNo (s : State) (bs : List Byte) : (s.setRegs bs).cycleNo = s.cycleNo := rfl

/-! ### `State.setIdx` -/

@[simp] theorem State.setIdx_v (s : State) (w : Word) : (s.setIdx w).v = s.v := rfl
@[simp] theorem State.setIdx_idx (s : State) (w : Word) : (s.setIdx w).idx = w := rfl
@[simp] theorem State.setIdx_pc (s : State) (w : Word) : (s.setIdx w).pc = s.pc := rfl
@[simp] theorem State.setIdx_stack (s : State) (w : Word) : (s.setIdx w).stack = s.stack := rfl
@[simp] theorem State.setIdx_sp (s : State) (w : Word) : (s.setIdx w).sp = s.sp := rfl
@[simp] theorem State.setIdx_dt (s : State) (w : Word) : (s.setIdx w).dt = s.dt := rfl
@[simp] theorem State.setIdx_st (s : State) (w : Word) : (s.setIdx w).st = s.st := rfl
@[simp] theorem State.setIdx_keys (s : State) (w : Word) : (s.setIdx w).keys = s.keys := rfl
@[simp] theorem State.setIdx_fb (s : State) (w : Word) : (s.setIdx w).fb = s.fb := rfl
@[simp] theorem State.setIdx_mem (s : State) (w : Word) : (s.setIdx w).mem = s.mem := rfl
@[simp] theorem State.setIdx_prog (s : State) (w : Word) : (s.setIdx w).prog = s.prog := rfl
@[simp] theorem State.setIdx_params (s : State) (w : Word) : (s.setIdx w).params = s.params := rfl
@[simp] theorem State.setIdx_diag (s : State) (w : Word) : (s.setIdx w).diag = s.diag := rfl
@[simp] theorem State.setIdx_tone (s : State) (w : Word) : (s.setIdx w).tone = s.tone := rfl
@[simp] theorem State.setIdx_trace (s : State) (w : Word) : (s.setIdx w).trace = s.trace := rfl
@[simp] theorem State.setIdx_cycleNo (s : State) (w : Word) : (s.setIdx w).cycleNo = s.cycleNo := rfl

/-! ### `State.setPc` -/

@[simp] theorem State.setPc_v (s : State) (w : Word) : (s.setPc w).v = s.v := rfl
@[simp] theorem State.setPc_idx (s : State) (w : Word) : (s.setPc w).idx = s.idx := rfl
@[simp] theorem State.setPc_pc (s : State) (w : Word) : (s.setPc w).pc = w := rfl
@[simp] theorem State.setPc_stack (s : State) (w : Word) : (s.setPc w).stack = s.stack := rfl
@[simp] theorem State.setPc_sp (s : State) (w : Word) : (s.setPc w).sp = s.sp := rfl
@[simp] theorem State.setPc_dt (s : State) (w : Word) : (s.setPc w).dt = s.dt := rfl
@[simp] theorem State.setPc_st (s : State) (w : Word) : (s.setPc w).st = s.st := rfl
@[simp] theorem State.setPc_keys (s : State) (w : Word) : (s.setPc w).keys = s.keys := rfl
@[simp] theorem State.setPc_fb (s : State) (w : Word) : (s.setPc w).fb = s.fb := rfl
@[simp] theorem State.setPc_mem (s : State) (w : Word) : (s.setPc w).mem = s.mem := rfl
@[simp] theorem State.setPc_prog (s : State) (w : Word) : (s.setPc w).prog = s.prog := rfl
@[simp] theorem State.setPc_params (s : State) (w : Word) : (s.setPc w).params = s.params := rfl
@[simp] theorem State.setPc_diag (s : State) (w : Word) : (s.setPc w).diag = s.diag := rfl
@[simp] theorem State.setPc_tone (s : State) (w : Word) : (s.setPc w).tone = s.tone := rfl
@[simp] theorem State.setPc_trace (s : State) (w : Word) : (s.setPc w).trace = s.trace := rfl
@[simp] theorem State.setPc_cycleNo (s : State) (w : Word) : (s.setPc w).cycleNo = s.cycleNo := rfl

/-! ### `State.setDt` -/

@[simp] theorem State.setDt_v (s : State) (b : Byte) : (s.setDt b).v = s.v := rfl
@[simp] theorem State.setDt_idx (s : State) (b : Byte) : (s.setDt b).idx = s.idx := rfl
@[simp] theorem State.setDt_pc (s : State) (b : Byte) : (s.setDt b).pc = s.pc := rfl
@[simp] theorem State.setDt_stack (s : State) (b : Byte) : (s.setDt b).stack = s.stack := rfl
@[simp] theorem State.setDt_sp (s : State) (b : Byte) : (s.setDt b).sp = s.sp := rfl
@[simp] theorem State.setDt_dt (s : State) (b : Byte) : (s.setDt b).dt = b := rfl
@[simp] theorem State.setDt_st (s : State) (b : Byte) : (s.setDt b).st = s.st := rfl
@[simp] theorem State.setDt_keys (s : State) (b : Byte) : (s.setDt b).keys = s.keys := rfl
@[simp] theorem State.setDt_fb (s : State) (b : Byte) : (s.setDt b).fb = s.fb := rfl
@[simp] theorem State.setDt_mem (s : State) (b : Byte) : (s.setDt b).mem = s.mem := rfl
@[simp] theorem State.setDt_prog (s : State) (b : Byte) : (s.setDt b).prog = s.prog := rfl
@[simp] theorem State.setDt_params (s : State) (b : Byte) : (s.setDt b).params = s.params := rfl
@[simp] theorem State.setDt_diag (s : State) (b : Byte) : (s.setDt b).diag = s.diag := rfl
@[simp] theorem State.setDt_tone (s : State) (b : Byte) : (s.setDt b).tone = s.tone := rfl
@[simp] theorem State.setDt_trace (s : State) (b : Byte) : (s.setDt b).trace = s.trace := rfl
@[simp] theorem State.setDt_cycleNo (s : State) (b : Byte) : (s.setDt b).cycleNo = s.cycleNo := rfl

/-! ### `State.setSt` -/

@[simp] theorem State.setSt_v (s : State) (b : Byte) : (s.setSt b).v = s.v := rfl
@[simp] theorem State.setSt_idx (s : State) (b : Byte) : (s.setSt b).idx = s.idx := rfl
@[simp] theorem State.setSt_pc (s : State) (b : Byte) : (s.setSt b).pc = s.pc := rfl
@[simp] theorem State.setSt_stack (s : State) (b : Byte) : (s.setSt b).stack = s.stack := rfl
@[simp] theorem State.setSt_sp (s : State) (b : Byte) : (s.setSt b).sp = s.sp := rfl
@[simp] theorem State.setSt_dt (s : State) (b : Byte) : (s.setSt b).dt = s.dt := rfl
@[simp] theorem State.setSt_st (s : State) (b : Byte) : (s.setSt b).st = b := rfl
@[simp] theorem State.setSt_keys (s : State) (b : Byte) : (s.setSt b).keys = s.keys := rfl
@[simp] theorem State.setSt_fb (s : State) (b : Byte) : (s.setSt b).fb = s.fb := rfl
@[simp] theorem State.setSt_mem (s : State) (b : Byte) : (s.setSt b).mem = s.mem := rfl
@[simp] theorem State.setSt_prog (s : State) (b : Byte) : (s.setSt b).prog = s.prog := rfl
@[simp] theorem State.setSt_params (s : State) (b : Byte) : (s.setSt b).params = s.params := rfl
@[simp] theorem State.setSt_diag (s : State) (b : Byte) : (s.setSt b).diag = s.diag := rfl
@[simp] theorem State.setSt_tone (s : State) (b : Byte) : (s.setSt b).tone = s.tone := rfl
@[simp] theorem State.setSt_trace (s : State) (b : Byte) : (s.setSt b).trace = s.trace := rfl
@[simp] theorem State.setSt_cycleNo (s : State) (b : Byte) : (s.setSt b).cycleNo = s.cycleNo := rfl

/-! ### `State.setFb` -/

@[simp] theorem State.setFb_v (s : State) (f : FrameBuf) : (s.setFb f).v = s.v := rfl
@[simp] theorem State.setFb_idx (s : State) (f : FrameBuf) : (s.setFb f).idx = s.idx := rfl
@[simp] theorem State.setFb_pc (s : State) (f : FrameBuf) : (s.setFb f).pc = s.pc := rfl
@[simp] theorem State.setFb_stack (s : State) (f : FrameBuf) : (s.setFb f).stack = s.stack := rfl
@[simp] theorem State.setFb_sp (s : State) (f : FrameBuf) : (s.setFb f).sp = s.sp := rfl
@[simp] theorem State.setFb_dt (s : State) (f : FrameBuf) : (s.setFb f).dt = s.dt := rfl
@[simp] theorem State.setFb_st (s : State) (f : FrameBuf) : (s.setFb f).st = s.st := rfl
@[simp] theorem State.setFb_keys (s : State) (f : FrameBuf) : (s.setFb f).keys = s.keys := rfl
@[simp] theorem State.setFb_fb (s : State) (f : FrameBuf) : (s.setFb f).fb = f := rfl
@[simp] theorem State.setFb_mem (s : State) (f : FrameBuf) : (s.setFb f).mem = s.mem := rfl
@[simp] theorem State.setFb_prog (s : State) (f : FrameBuf) : (s.setFb f).prog = s.prog := rfl
@[simp] theorem State.setFb_params (s : State) (f : FrameBuf) : (s.setFb f).params = s.params := rfl
@[simp] theorem State.setFb_diag (s : State) (f : FrameBuf) : (s.setFb f).diag = s.diag := rfl
@[simp] theorem State.setFb_tone (s : State) (f : FrameBuf) : (s.setFb f).tone = s.tone := rfl
@[simp] theorem State.setFb_trace (s : State) (f : FrameBuf) : (s.setFb f).trace = s.trace := rfl
@[simp] theorem State.setFb_cycleNo (s : State) (f : FrameBuf) : (s.setFb f).cycleNo = s.cycleNo := rfl

/-! ### `State.setMem` -/

@[simp] theorem State.setMem_v (s : State) (m : Memory) : (s.setMem m).v = s.v := rfl
@[simp] theorem State.setMem_idx (s : State) (m : Memory) : (s.setMem m).idx = s.idx := rfl
@[simp] theorem State.setMem_pc (s : State) (m : Memory) : (s.setMem m).pc = s.pc := rfl
@[simp] theorem State.setMem_stack (s : State) (m : Memory) : (s.setMem m).stack = s.stack := rfl
@[simp] theorem State.setMem_sp (s : State) (m : Memory) : (s.setMem m).sp = s.sp := rfl
@[simp] theorem State.setMem_dt (s : State) (m : Memory) : (s.setMem m).dt = s.dt := rfl
@[simp] theorem State.setMem_st (s : State) (m : Memory) : (s.setMem m).st = s.st := rfl
@[simp] theorem State.setMem_keys (s : State) (m : Memory) : (s.setMem m).keys = s.keys := rfl
@[simp] theorem State.setMem_fb (s : State) (m : Memory) : (s.setMem m).fb = s.fb := rfl
@[simp] theorem State.setMem_mem (s : State) (m : Memory) : (s.setMem m).mem = m := rfl
@[simp] theorem State.setMem_prog (s : State) (m : Memory) : (s.setMem m).prog = s.prog := rfl
@[simp] theorem State.setMem_params (s : State) (m : Memory) : (s.setMem m).params = s.params := rfl
@[simp] theorem State.setMem_diag (s : State) (m : Memory) : (s.setMem m).diag = s.diag := rfl
@[simp] theorem State.setMem_tone (s : State) (m : Memory) : (s.setMem m).tone = s.tone := rfl
@[simp] theorem State.setMem_trace (s : State) (m : Memory) : (s.setMem m).trace = s.trace := rfl
@[simp] theorem State.setMem_cycleNo (s : State) (m : Memory) : (s.setMem m).cycleNo = s.cycleNo := rfl

/-! ### `State.setDiag` -/

@[simp] theorem State.setDiag_v (s : State) (d : Diag) : (s.setDiag d).v = s.v := rfl
@[simp] theorem State.setDiag_idx (s : State) (d : Diag) : (s.setDiag d).idx = s.idx := rfl
@[simp] theorem State.setDiag_pc (s : State) (d : Diag) : (s.setDiag d).pc = s.pc := rfl
@[simp] theorem State.setDiag_stack (s : State) (d : Diag) : (s.setDiag d).stack = s.stack := rfl
@[simp] theorem State.setDiag_sp (s : State) (d : Diag) : (s.setDiag d).sp = s.sp := rfl
@[simp] theorem State.setDiag_dt (s : State) (d : Diag) : (s.setDiag d).dt = s.dt := rfl
@[simp] theorem State.setDiag_st (s : State) (d : Diag) : (s.setDiag d).st = s.st := rfl
@[simp] theorem State.setDiag_keys (s : State) (d : Diag) : (s.setDiag d).keys = s.keys := rfl
@[simp] theorem State.setDiag_fb (s : State) (d : Diag) : (s.setDiag d).fb = s.fb := rfl
@[simp] theorem State.setDiag_mem (s : State) (d : Diag) : (s.setDiag d).mem = s.mem := rfl
@[simp] theorem State.setDiag_prog (s : State) (d : Diag) : (s.setDiag d).prog = s.prog := rfl
@[simp] theorem State.setDiag_params (s : State) (d : Diag) : (s.setDiag d).params = s.params := rfl
@[simp] theorem State.setDiag_diag (s : State) (d : Diag) : (s.setDiag d).diag = some d := rfl
@[simp] theorem State.setDiag_tone (s : State) (d : Diag) : (s.setDiag d).tone = s.tone := rfl
@[simp] theorem State.setDiag_trace (s : State) (d : Diag) : (s.setDiag d).trace = s.trace := rfl
@[simp] theorem State.setDiag_cycleNo (s : State) (d : Diag) : (s.setDiag d).cycleNo = s.cycleNo := rfl

/-! ### `State.report` -/

@[simp] theorem State.report_v (s : State) (d : Diag) : (s.report d).v = s.v := rfl
@[simp] theorem State.report_idx (s : State) (d : Diag) : (s.report d).idx = s.idx := rfl
@[simp] theorem State.report_pc (s : State) (d : Diag) : (s.report d).pc = s.pc := rfl
@[simp] theorem State.report_stack (s : State) (d : Diag) : (s.report d).stack = s.stack := rfl
@[simp] theorem State.report_sp (s : State) (d : Diag) : (s.report d).sp = s.sp := rfl
@[simp] theorem State.report_dt (s : State) (d : Diag) : (s.report d).dt = s.dt := rfl
@[simp] theorem State.report_st (s : State) (d : Diag) : (s.report d).st = s.st := rfl
@[simp] theorem State.report_keys (s : State) (d : Diag) : (s.report d).keys = s.keys := rfl
@[simp] theorem State.report_fb (s : State) (d : Diag) : (s.report d).fb = s.fb := rfl
@[simp] theorem State.report_mem (s : State) (d : Diag) : (s.report d).mem = s.mem := rfl
@[simp] theorem State.report_prog (s : State) (d : Diag) : (s.report d).prog = s.prog := rfl
@[simp] theorem State.report_params (s : State) (d : Diag) : (s.report d).params = s.params := rfl
@[simp] theorem State.report_diag (s : State) (d : Diag) : (s.report d).diag = some d := rfl
@[simp] theorem State.report_tone (s : State) (d : Diag) : (s.report d).tone = s.tone := rfl
@[simp] theorem State.report_trace (s : State) (d : Diag) : (s.report d).trace = s.trace := rfl
@[simp] theorem State.report_cycleNo (s : State) (d : Diag) : (s.report d).cycleNo = s.cycleNo := rfl

/-! ### `State.raise` -/

@[simp] theorem State.raise_v (s : State) (d : Diag) : (s.raise d).v = s.v := rfl
@[simp] theorem State.raise_idx (s : State) (d : Diag) : (s.raise d).idx = s.idx := rfl
@[simp] theorem State.raise_pc (s : State) (d : Diag) : (s.raise d).pc = s.failedPc := rfl
@[simp] theorem State.raise_stack (s : State) (d : Diag) : (s.raise d).stack = s.stack := rfl
@[simp] theorem State.raise_sp (s : State) (d : Diag) : (s.raise d).sp = s.sp := rfl
@[simp] theorem State.raise_dt (s : State) (d : Diag) : (s.raise d).dt = s.dt := rfl
@[simp] theorem State.raise_st (s : State) (d : Diag) : (s.raise d).st = s.st := rfl
@[simp] theorem State.raise_keys (s : State) (d : Diag) : (s.raise d).keys = s.keys := rfl
@[simp] theorem State.raise_fb (s : State) (d : Diag) : (s.raise d).fb = s.fb := rfl
@[simp] theorem State.raise_mem (s : State) (d : Diag) : (s.raise d).mem = s.mem := rfl
@[simp] theorem State.raise_prog (s : State) (d : Diag) : (s.raise d).prog = s.prog := rfl
@[simp] theorem State.raise_params (s : State) (d : Diag) : (s.raise d).params = s.params := rfl
@[simp] theorem State.raise_diag (s : State) (d : Diag) : (s.raise d).diag = some d := rfl
@[simp] theorem State.raise_tone (s : State) (d : Diag) : (s.raise d).tone = s.tone := rfl
@[simp] theorem State.raise_trace (s : State) (d : Diag) : (s.raise d).trace = s.trace := rfl
@[simp] theorem State.raise_cycleNo (s : State) (d : Diag) : (s.raise d).cycleNo = s.cycleNo := rfl

/-! ### `State.beginCycle` -/

@[simp] theorem State.beginCycle_v (s : State) : s.beginCycle.v = s.v := rfl
@[simp] theorem State.beginCycle_idx (s : State) : s.beginCycle.idx = s.idx := rfl
@[simp] theorem State.beginCycle_pc (s : State) : s.beginCycle.pc = s.pc + 2#16 := rfl
@[simp] theorem State.beginCycle_stack (s : State) : s.beginCycle.stack = s.stack := rfl
@[simp] theorem State.beginCycle_sp (s : State) : s.beginCycle.sp = s.sp := rfl
@[simp] theorem State.beginCycle_dt (s : State) : s.beginCycle.dt = s.dt := rfl
@[simp] theorem State.beginCycle_st (s : State) : s.beginCycle.st = s.st := rfl
@[simp] theorem State.beginCycle_keys (s : State) : s.beginCycle.keys = s.keys := rfl
@[simp] theorem State.beginCycle_fb (s : State) : s.beginCycle.fb = s.fb := rfl
@[simp] theorem State.beginCycle_mem (s : State) : s.beginCycle.mem = s.mem := rfl
@[simp] theorem State.beginCycle_prog (s : State) : s.beginCycle.prog = s.prog := rfl
@[simp] theorem State.beginCycle_params (s : State) : s.beginCycle.params = s.params := rfl
@[simp] theorem State.beginCycle_diag (s : State) : s.beginCycle.diag = none := rfl
@[simp] theorem State.beginCycle_tone (s : State) : s.beginCycle.tone = false := rfl
@[simp] theorem State.beginCycle_trace (s : State) : s.beginCycle.trace = s.trace := rfl
@[simp] theorem State.beginCycle_cycleNo (s : State) : s.beginCycle.cycleNo = s.cycleNo := rfl

/-! ### `State.timerUpdate` -/

@[simp] theorem State.timerUpdate_v (s : State) : s.timerUpdate.v = s.v := rfl
@[simp] theorem State.timerUpdate_idx (s : State) : s.timerUpdate.idx = s.idx := rfl
@[simp] theorem State.timerUpdate_pc (s : State) : s.timerUpdate.pc = s.pc := rfl
@[simp] theorem State.timerUpdate_stack (s : State) : s.timerUpdate.stack = s.stack := rfl
@[simp] theorem State.timerUpdate_sp (s : State) : s.timerUpdate.sp = s.sp := rfl
@[simp] theorem State.timerUpdate_dt (s : State) : s.timerUpdate.dt = countDown s.dt := rfl
@[simp] theorem State.timerUpdate_st (s : State) : s.timerUpdate.st = countDown s.st := rfl
@[simp] theorem State.timerUpdate_keys (s : State) : s.timerUpdate.keys = s.keys := rfl
@[simp] theorem State.timerUpdate_fb (s : State) : s.timerUpdate.fb = s.fb := rfl
@[simp] theorem State.timerUpdate_mem (s : State) : s.timerUpdate.mem = s.mem := rfl
@[simp] theorem State.timerUpdate_prog (s : State) : s.timerUpdate.prog = s.prog := rfl
@[simp] theorem State.timerUpdate_params (s : State) : s.timerUpdate.params = s.params := rfl
@[simp] theorem State.timerUpdate_diag (s : State) : s.timerUpdate.diag = s.diag := rfl
@[simp] theorem State.timerUpdate_tone (s : State) : s.timerUpdate.tone = (s.st != 0#8 && countDown s.st == 0#8) := rfl
@[simp] theorem State.timerUpdate_trace (s : State) : s.timerUpdate.trace = s.trace := rfl
@[simp] theorem State.timerUpdate_cycleNo (s : State) : s.timerUpdate.cycleNo = s.cycleNo := rfl

/-! ### `State.recordOutputs` -/

@[simp] theorem State.recordOutputs_v (s : State) : s.recordOutputs.v = s.v := rfl
@[simp] theorem State.recordOutputs_idx (s : State) : s.recordOutputs.idx = s.idx := rfl
@[simp] theorem State.recordOutputs_pc (s : State) : s.recordOutputs.pc = s.pc := rfl
@[simp] theorem State.recordOutputs_stack (s : State) : s.recordOutputs.stack = s.stack := rfl
@[simp] theorem State.recordOutputs_sp (s : State) : s.recordOutputs.sp = s.sp := rfl
@[simp] theorem State.recordOutputs_dt (s : State) : s.recordOutputs.dt = s.dt := rfl
@[simp] theorem State.recordOutputs_st (s : State) : s.recordOutputs.st = s.st := rfl
@[simp] theorem State.recordOutputs_keys (s : State) : s.recordOutputs.keys = s.keys := rfl
@[simp] theorem State.recordOutputs_fb (s : State) : s.recordOutputs.fb = s.fb := rfl
@[simp] theorem State.recordOutputs_mem (s : State) : s.recordOutputs.mem = s.mem := rfl
@[simp] theorem State.recordOutputs_prog (s : State) : s.recordOutputs.prog = s.prog := rfl
@[simp] theorem State.recordOutputs_params (s : State) : s.recordOutputs.params = s.params := rfl
@[simp] theorem State.recordOutputs_diag (s : State) : s.recordOutputs.diag = s.diag := rfl
@[simp] theorem State.recordOutputs_tone (s : State) : s.recordOutputs.tone = s.tone := rfl
@[simp] theorem State.recordOutputs_trace (s : State) : s.recordOutputs.trace = { diag := s.diag, tone := s.tone } :: s.trace := rfl
@[simp] theorem State.recordOutputs_cycleNo (s : State) : s.recordOutputs.cycleNo = s.cycleNo + 1 := rfl

/-! ### `State.endCycle` -/

@[simp] theorem State.endCycle_v (s : State) : s.endCycle.v = s.v := rfl
@[simp] theorem State.endCycle_idx (s : State) : s.endCycle.idx = s.idx := rfl
@[simp] theorem State.endCycle_pc (s : State) : s.endCycle.pc = s.pc := rfl
@[simp] theorem State.endCycle_stack (s : State) : s.endCycle.stack = s.stack := rfl
@[simp] theorem State.endCycle_sp (s : State) : s.endCycle.sp = s.sp := rfl
@[simp] theorem State.endCycle_dt (s : State) : s.endCycle.dt = countDown s.dt := rfl
@[simp] theorem State.endCycle_st (s : State) : s.endCycle.st = countDown s.st := rfl
@[simp] theorem State.endCycle_keys (s : State) : s.endCycle.keys = s.keys := rfl
@[simp] theorem State.endCycle_fb (s : State) : s.endCycle.fb = s.fb := rfl
@[simp] theorem State.endCycle_mem (s : State) : s.endCycle.mem = s.mem := rfl
@[simp] theorem State.endCycle_prog (s : State) : s.endCycle.prog = s.prog := rfl
@[simp] theorem State.endCycle_params (s : State) : s.endCycle.params = s.params := rfl
@[simp] theorem State.endCycle_diag (s : State) : s.endCycle.diag = s.diag := rfl
@[simp] theorem State.endCycle_tone (s : State) : s.endCycle.tone = (s.st != 0#8 && countDown s.st == 0#8) := rfl
@[simp] theorem State.endCycle_trace (s : State) : s.endCycle.trace = { diag := s.diag, tone := (s.st != 0#8 && countDown s.st == 0#8) } :: s.trace := rfl
@[simp] theorem State.endCycle_cycleNo (s : State) : s.endCycle.cycleNo = s.cycleNo + 1 := rfl

/-! ### `State.setProg` -/

@[simp] theorem State.setProg_v (s : State) (bs : List Byte) : (s.setProg bs).v = s.v := rfl
@[simp] theorem State.setProg_idx (s : State) (bs : List Byte) : (s.setProg bs).idx = s.idx := rfl
@[simp] theorem State.setProg_pc (s : State) (bs : List Byte) : (s.setProg bs).pc = s.pc := rfl
@[simp] theorem State.setProg_stack (s : State) (bs : List Byte) : (s.setProg bs).stack = s.stack := rfl
@[simp] theorem State.setProg_sp (s : State) (bs : List Byte) : (s.setProg bs).sp = s.sp := rfl
@[simp] theorem State.setProg_dt (s : State) (bs : List Byte) : (s.setProg bs).dt = s.dt := rfl
@[simp] theorem State.setProg_st (s : State) (bs : List Byte) : (s.setProg bs).st = s.st := rfl
@[simp] theorem State.setProg_keys (s : State) (bs : List Byte) : (s.setProg bs).keys = s.keys := rfl
@[simp] theorem State.setProg_fb (s : State) (bs : List Byte) : (s.setProg bs).fb = s.fb := rfl
@[simp] theorem State.setProg_mem (s : State) (bs : List Byte) : (s.setProg bs).mem = s.mem := rfl
@[simp] theorem State.setProg_prog (s : State) (bs : List Byte) : (s.setProg bs).prog = bs := rfl
@[simp] theorem State.setProg_params (s : State) (bs : List Byte) : (s.setProg bs).params = s.params := rfl
@[simp] theorem State.setProg_diag (s : State) (bs : List Byte) : (s.setProg bs).diag = s.diag := rfl
@[simp] theorem State.setProg_tone (s : State) (bs : List Byte) : (s.setProg bs).tone = s.tone := rfl
@[simp] theorem State.setProg_trace (s : State) (bs : List Byte) : (s.setProg bs).trace = s.trace := rfl
@[simp] theorem State.setProg_cycleNo (s : State) (bs : List Byte) : (s.setProg bs).cycleNo = s.cycleNo := rfl

/-! ### `State.setKey` -/

@[simp] theorem State.setKey_v (s : State) (c : Nat) (p : Bool) : (s.setKey c p).v = s.v := rfl
@[simp] theorem State.setKey_idx (s : State) (c : Nat) (p : Bool) : (s.setKey c p).idx = s.idx := rfl
@[simp] theorem State.setKey_pc (s : State) (c : Nat) (p : Bool) : (s.setKey c p).pc = s.pc := rfl
@[simp] theorem State.setKey_stack (s : State) (c : Nat) (p : Bool) : (s.setKey c p).stack = s.stack := rfl
@[simp] theorem State.setKey_sp (s : State) (c : Nat) (p : Bool) : (s.setKey c p).sp = s.sp := rfl
@[simp] theorem State.setKey_dt (s : State) (c : Nat) (p : Bool) : (s.setKey c p).dt = s.dt := rfl
@[simp] theorem State.setKey_st (s : State) (c : Nat) (p : Bool) : (s.setKey c p).st = s.st := rfl
@[simp] theorem State.setKey_keys (s : State) (c : Nat) (p : Bool) : (s.setKey c p).keys = s.keys.setIfInBounds c p := rfl
@[simp] theorem State.setKey_fb (s : State) (c : Nat) (p : Bool) : (s.setKey c p).fb = s.fb := rfl
@[simp] theorem State.setKey_mem (s : State) (c : Nat) (p : Bool) : (s.setKey c p).mem = s.mem := rfl
@[simp] theorem State.setKey_prog (s : State) (c : Nat) (p : Bool) : (s.setKey c p).prog = s.prog := rfl
@[simp] theorem State.setKey_params (s : State) (c : Nat) (p : Bool) : (s.setKey c p).params = s.params := rfl
@[simp] theorem State.setKey_diag (s : State) (c : Nat) (p : Bool) : (s.setKey c p).diag = s.diag := rfl
@[simp] theorem State.setKey_tone (s : State) (c : Nat) (p : Bool) : (s.setKey c p).tone = s.tone := rfl
@[simp] theorem State.setKey_trace (s : State) (c : Nat) (p : Bool) : (s.setKey c p).trace = s.trace := rfl
@[simp] theorem State.setKey_cycleNo (s : State) (c : Nat) (p : Bool) : (s.setKey c p).cycleNo = s.cycleNo := rfl

/-! ### `State.writeTimers` -/

@[simp] theorem State.writeTimers_v (s : State) (d t : Byte) : (s.writeTimers d t).v = s.v := rfl
@[simp] theorem State.writeTimers_idx (s : State) (d t : Byte) : (s.writeTimers d t).idx = s.idx := rfl
@[simp] theorem State.writeTimers_pc (s : State) (d t : Byte) : (s.writeTimers d t).pc = s.pc := rfl
@[simp] theorem State.writeTimers_stack (s : State) (d t : Byte) : (s.writeTimers d t).stack = s.stack := rfl
@[simp] theorem State.writeTimers_sp (s : State) (d t : Byte) : (s.writeTimers d t).sp = s.sp := rfl
@[simp] theorem State.writeTimers_dt (s : State) (d t : Byte) : (s.writeTimers d t).dt = d := rfl
@[simp] theorem State.writeTimers_st (s : State) (d t : Byte) : (s.writeTimers d t).st = t := rfl
@[simp] theorem State.writeTimers_keys (s : State) (d t : Byte) : (s.writeTimers d t).keys = s.keys := rfl
@[simp] theorem State.writeTimers_fb (s : State) (d t : Byte) : (s.writeTimers d t).fb = s.fb := rfl
@[simp] theorem State.writeTimers_mem (s : State) (d t : Byte) : (s.writeTimers d t).mem = s.mem := rfl
@[simp] theorem State.writeTimers_prog (s : State) (d t : Byte) : (s.writeTimers d t).prog = s.prog := rfl
@[simp] theorem State.writeTimers_params (s : State) (d t : Byte) : (s.writeTimers d t).params = s.params := rfl
@[simp] theorem State.writeTimers_diag (s : State) (d t : Byte) : (s.writeTimers d t).diag = s.diag := rfl
@[simp] theorem State.writeTimers_tone (s : State) (d t : Byte) : (s.writeTimers d t).tone = s.tone := rfl
@[simp] theorem State.writeTimers_trace (s : State) (d t : Byte) : (s.writeTimers d t).trace = s.trace := rfl
@[simp] theorem State.writeTimers_cycleNo (s : State) (d t : Byte) : (s.writeTimers d t).cycleNo = s.cycleNo := rfl

/-! ### `State.resetWith` -/

@[simp] theorem State.resetWith_v (s : State) (bs : List Byte) : (s.resetWith bs).v = Vector.replicate 16 0#8 := rfl
@[simp] theorem State.resetWith_idx (s : State) (bs : List Byte) : (s.resetWith bs).idx = 0#16 := rfl
@[simp] theorem State.resetWith_pc (s : State) (bs : List Byte) : (s.resetWith bs).pc = zextAddr s.params.programStart := rfl
@[simp] theorem State.resetWith_stack (s : State) (bs : List Byte) : (s.resetWith bs).stack = Vector.replicate 16 0#16 := rfl
@[simp] theorem State.resetWith_sp (s : State) (bs : List Byte) : (s.resetWith bs).sp = 0 := rfl
@[simp] theorem State.resetWith_dt (s : State) (bs : List Byte) : (s.resetWith bs).dt = 0#8 := rfl
@[simp] theorem State.resetWith_st (s : State) (bs : List Byte) : (s.resetWith bs).st = 0#8 := rfl
@[simp] theorem State.resetWith_keys (s : State) (bs : List Byte) : (s.resetWith bs).keys = Vector.replicate 16 false := rfl
@[simp] theorem State.resetWith_fb (s : State) (bs : List Byte) : (s.resetWith bs).fb = FrameBuf.clear := rfl
@[simp] theorem State.resetWith_mem (s : State) (bs : List Byte) : (s.resetWith bs).mem = resetMemory s.params bs := rfl
@[simp] theorem State.resetWith_prog (s : State) (bs : List Byte) : (s.resetWith bs).prog = s.prog := rfl
@[simp] theorem State.resetWith_params (s : State) (bs : List Byte) : (s.resetWith bs).params = s.params := rfl
@[simp] theorem State.resetWith_diag (s : State) (bs : List Byte) : (s.resetWith bs).diag = none := rfl
@[simp] theorem State.resetWith_tone (s : State) (bs : List Byte) : (s.resetWith bs).tone = false := rfl
@[simp] theorem State.resetWith_trace (s : State) (bs : List Byte) : (s.resetWith bs).trace = s.trace := rfl
@[simp] theorem State.resetWith_cycleNo (s : State) (bs : List Byte) : (s.resetWith bs).cycleNo = s.cycleNo := rfl

end Sys2Proof.Machine
end

