-- ==== Sys2Proof/Laws/Display.lean ====
section
/-!
SUPPORT. What a draw does, said once: the drawing loop of 41_display R171 visits distinct pixels (R172), so each pixel
ends as its old value XOR the sprite's bit on it, and the collision is an overlap of set bits with lit pixels.
-/
namespace Sys2Proof.Machine

/-- A pixel after one is flipped. -/
theorem FrameBuf.lit_flip (f : FrameBuf) {x y : Nat} (px py : Nat) (hx : x < 64) (hy : y < 32) :
    FrameBuf.lit (FrameBuf.flip f x y) px py = (FrameBuf.lit f px py ^^ (decide (px = x) && decide (py = y))) := by
  unfold FrameBuf.lit FrameBuf.flip
  by_cases h : y = py
  · subst h
    simp [hy, BitVec.getLsbD_twoPow, hx, eq_comm]
  · simp [h, Ne.symm h]

/-- Pixels flipped in order, with the collision. -/
def drawPixels (ps : List (Nat × Nat)) (d : DrawAcc) : DrawAcc := ps.foldl (fun d p => drawBit p.1 p.2 d) d

/-- Distinct pixels flipped: each pixel of the list changes once, and a collision is a listed pixel that was lit. -/
theorem drawPixels_spec (ps : List (Nat × Nat)) (d : DrawAcc) (hnd : ps.Nodup)
    (hin : ∀ p ∈ ps, p.1 < 64 ∧ p.2 < 32) :
    (∀ px py, FrameBuf.lit (drawPixels ps d).1 px py = (FrameBuf.lit d.1 px py ^^ decide ((px, py) ∈ ps))) ∧
    (drawPixels ps d).2 = (d.2 || ps.any fun p => FrameBuf.lit d.1 p.1 p.2) := by
  induction ps generalizing d with
  | nil => simp [drawPixels]
  | cons p ps ih =>
    obtain ⟨hp, hnd'⟩ := List.nodup_cons.1 hnd
    have hp' := hin p (by simp)
    obtain ⟨h1, h2⟩ := ih (drawBit p.1 p.2 d) hnd' fun q hq => hin q (by simp [hq])
    have hlit : ∀ px py, FrameBuf.lit (drawBit p.1 p.2 d).1 px py =
        (FrameBuf.lit d.1 px py ^^ (decide (px = p.1) && decide (py = p.2))) :=
      fun px py => FrameBuf.lit_flip d.1 px py hp'.1 hp'.2
    have e : drawPixels (p :: ps) d = drawPixels ps (drawBit p.1 p.2 d) := rfl
    constructor
    · intro px py
      rw [e, h1, hlit, Bool.xor_assoc]
      congr 1
      by_cases hq : (px, py) = p
      · subst hq; simp [hp]
      · have : ¬ (px = p.1 ∧ py = p.2) := fun h => hq (Prod.ext h.1 h.2)
        have hmem : ((px, py) ∈ p :: ps) ↔ (px, py) ∈ ps := by simp [hq]
        by_cases hx : px = p.1
        · have hy : py ≠ p.2 := fun hy => this ⟨hx, hy⟩
          simp [hmem, hy]
        · simp [hmem, hx]
    · have hany : (ps.any fun q => FrameBuf.lit (drawBit p.1 p.2 d).1 q.1 q.2) =
          ps.any fun q => FrameBuf.lit d.1 q.1 q.2 := by
        rw [Bool.eq_iff_iff, List.any_eq_true, List.any_eq_true]
        refine exists_congr fun q => and_congr_right fun hq => ?_
        have : ¬ (q.1 = p.1 ∧ q.2 = p.2) := fun h => hp (Prod.ext h.1 h.2 ▸ hq)
        rw [hlit]
        by_cases hx : q.1 = p.1
        · have hy : q.2 ≠ p.2 := fun hy => this ⟨hx, hy⟩
          simp [hy]
        · simp [hx]
      rw [e, h2, hany]
      simp [drawBit, Bool.or_assoc]

/-- The pixels of one sprite byte, in the order they are drawn. -/
def bytePixels (b : Byte) (x0 py : Nat) : List (Nat × Nat) :=
  ((List.range 8).filter fun c => b.getLsbD (7 - c)).map fun c => ((x0 + c) % 64, py)

theorem drawByte_eq (b : Byte) (x0 py : Nat) (d : DrawAcc) :
    drawByte b x0 py d = drawPixels (bytePixels b x0 py) d := by
  simp only [drawByte, drawPixels, bytePixels, List.foldl_map, List.foldl_filter]

/-- The pixels of a sprite, in the order they are drawn. -/
def spritePixels (m : Memory) (base x0 y0 n : Nat) : List (Nat × Nat) :=
  (List.range n).flatMap fun r => bytePixels (m.read (base + r)) x0 ((y0 + r) % 32)

theorem drawSprite_eq (m : Memory) (base x0 y0 n : Nat) (f : FrameBuf) :
    drawSprite m base x0 y0 n f = drawPixels (spritePixels m base x0 y0 n) (f, false) := by
  simp only [drawSprite, drawByte_eq, drawPixels, spritePixels, List.foldl_flatMap]

theorem mem_bytePixels {b : Byte} {x0 py qx qy : Nat} :
    (qx, qy) ∈ bytePixels b x0 py ↔ ∃ c, c < 8 ∧ b.getLsbD (7 - c) = true ∧ (x0 + c) % 64 = qx ∧ py = qy := by
  simp [bytePixels, and_assoc]

/-- No pixel is visited twice in one draw (41_display R172), for up to 32 rows. -/
theorem spritePixels_nodup (m : Memory) (base x0 y0 n : Nat) (hn : n ≤ 32) :
    (spritePixels m base x0 y0 n).Nodup := by
  rw [spritePixels, List.nodup_flatMap]
  constructor
  · intro r _
    refine List.Nodup.map_on ?_ (List.nodup_range.filter _)
    intro c hc c' hc' h
    have h1 : c < 8 := List.mem_range.1 (List.mem_filter.1 hc).1
    have h2 : c' < 8 := List.mem_range.1 (List.mem_filter.1 hc').1
    have := (Prod.mk.inj h).1
    omega
  · refine List.Pairwise.imp_of_mem ?_ (List.pairwise_lt_range)
    intro r r' hr hr' hlt
    have h1 := List.mem_range.1 hr
    have h2 := List.mem_range.1 hr'
    simp only [Function.onFun, List.disjoint_left]
    rintro ⟨qx, qy⟩ hq hq'
    obtain ⟨_, _, _, _, e1⟩ := mem_bytePixels.1 hq
    obtain ⟨_, _, _, _, e2⟩ := mem_bytePixels.1 hq'
    omega

/-- A pixel is drawn exactly when the sprite has a set bit on it. -/
theorem mem_spritePixels (m : Memory) {base x0 y0 n px py : Nat} (hx0 : x0 < 64) (hy0 : y0 < 32) (hn : n ≤ 32)
    (hpx : px < 64) (hpy : py < 32) :
    (px, py) ∈ spritePixels m base x0 y0 n ↔ spriteBit m base x0 y0 n px py = true := by
  simp only [spritePixels, List.mem_flatMap, List.mem_range, mem_bytePixels, spriteBit, Bool.and_eq_true,
    decide_eq_true_eq]
  constructor
  · rintro ⟨r, hr, c, hc, hb, hcx, hry⟩
    have e1 : (py + 32 - y0) % 32 = r := by omega
    have e2 : (px + 64 - x0) % 64 = c := by omega
    rw [e1, e2]
    exact ⟨⟨hr, hc⟩, hb⟩
  · rintro ⟨⟨hr, hc⟩, hb⟩
    exact ⟨_, hr, _, hc, hb, by omega, by omega⟩

theorem spritePixels_in (m : Memory) (base x0 y0 n : Nat) :
    ∀ p ∈ spritePixels m base x0 y0 n, p.1 < 64 ∧ p.2 < 32 := by
  rintro ⟨qx, qy⟩ hq
  simp only [spritePixels, List.mem_flatMap] at hq
  obtain ⟨r, _, hq⟩ := hq
  obtain ⟨c, _, _, h1, h2⟩ := mem_bytePixels.1 hq
  constructor <;> simp only <;> omega

/-- Each pixel after a draw: its old value XOR the sprite's bit on it. -/
theorem drawSprite_lit (m : Memory) (f : FrameBuf) {base x0 y0 n px py : Nat} (hx0 : x0 < 64) (hy0 : y0 < 32)
    (hn : n ≤ 32) (hpx : px < 64) (hpy : py < 32) :
    FrameBuf.lit (drawSprite m base x0 y0 n f).1 px py = (FrameBuf.lit f px py ^^ spriteBit m base x0 y0 n px py) := by
  rw [drawSprite_eq, (drawPixels_spec _ _ (spritePixels_nodup m base x0 y0 n hn) (spritePixels_in m base x0 y0 n)).1]
  congr 1
  rw [Bool.eq_iff_iff, decide_eq_true_iff, mem_spritePixels m hx0 hy0 hn hpx hpy]

/-- The collision of a draw: some set bit of the sprite on a pixel that was lit. -/
theorem drawSprite_collision (m : Memory) (f : FrameBuf) {base x0 y0 n : Nat} (hx0 : x0 < 64) (hy0 : y0 < 32)
    (hn : n ≤ 32) :
    (drawSprite m base x0 y0 n f).2 = true ↔
      ∃ px py, px < 64 ∧ py < 32 ∧ spriteBit m base x0 y0 n px py = true ∧ FrameBuf.lit f px py = true := by
  rw [drawSprite_eq, (drawPixels_spec _ _ (spritePixels_nodup m base x0 y0 n hn) (spritePixels_in m base x0 y0 n)).2]
  simp only [Bool.false_or, List.any_eq_true]
  constructor
  · rintro ⟨⟨px, py⟩, hp, hl⟩
    have hin := spritePixels_in m base x0 y0 n _ hp
    exact ⟨px, py, hin.1, hin.2, (mem_spritePixels m hx0 hy0 hn hin.1 hin.2).1 hp, hl⟩
  · rintro ⟨px, py, h1, h2, hs, hl⟩
    exact ⟨(px, py), (mem_spritePixels m hx0 hy0 hn h1 h2).2 hs, hl⟩

/-- A clear framebuffer has no lit pixel. -/
@[simp] theorem FrameBuf.lit_clear (px py : Nat) : FrameBuf.lit FrameBuf.clear px py = false := by
  unfold FrameBuf.lit FrameBuf.clear
  by_cases h : py < 32 <;> simp [h]

/-- Framebuffers with the same pixels are equal. -/
theorem FrameBuf.ext_lit {f g : FrameBuf} (h : ∀ px py, px < 64 → py < 32 → FrameBuf.lit f px py = FrameBuf.lit g px py) :
    f = g := by
  apply Vector.ext
  intro y hy
  apply BitVec.eq_of_getLsbD_eq
  intro x hx
  have := h x y hx hy
  simpa [FrameBuf.lit, hy] using this

end Sys2Proof.Machine
end

