-- ==== Sys2Proof/Laws/Memory.lean ====
section
/-!
SUPPORT. The laws of memory: what each operation does to the read of one byte, and that each keeps the canonical form.
The reads hold in every memory, canonical or not.
-/
namespace Sys2Proof.Machine

/-! ### Reading -/

@[simp] theorem Memory.read_nil (a : Nat) : Memory.read [] a = Memory.unlisted a := rfl

theorem Memory.read_cons (b : Nat) (v : Byte) (m : Memory) (a : Nat) :
    Memory.read ((b, v) :: m) a = if a = b then v else Memory.read m a := rfl

theorem Memory.read_put (m : Memory) (a c : Nat) (v : Byte) :
    Memory.read (Memory.put m a v) c = if c = a then v else Memory.read m c := by
  induction m with
  | nil => simp [Memory.put, Memory.read_cons]
  | cons p m ih =>
    obtain ⟨b, w⟩ := p
    simp only [Memory.put]
    split
    · simp [Memory.read_cons]
    · split
      · next h => subst h; simp only [Memory.read_cons]; split <;> rfl
      · next h =>
        simp only [Memory.read_cons, ih]
        by_cases hc : c = b
        · subst hc; simp [Ne.symm h]
        · simp [hc]

theorem Memory.read_drop (m : Memory) (a c : Nat) :
    Memory.read (Memory.drop m a) c = if c = a then Memory.unlisted a else Memory.read m c := by
  induction m with
  | nil => simp only [Memory.drop, List.filter_nil, Memory.read_nil]; split <;> simp_all
  | cons p m ih =>
    obtain ⟨b, w⟩ := p
    have ih' : Memory.read (List.filter (fun c => c.1 != a) m) c =
        if c = a then Memory.unlisted a else Memory.read m c := ih
    by_cases hb : b = a
    · subst hb
      simp only [Memory.drop, List.filter_cons, bne_self_eq_false, Bool.false_eq_true, if_false, ih', Memory.read_cons]
      split <;> rfl
    · have hb' : (b != a) = true := by simpa using hb
      simp only [Memory.drop, List.filter_cons, hb', if_true, Memory.read_cons, ih']
      by_cases hc : c = b
      · subst hc; simp [hb]
      · simp [hc]

/-- A byte after a byte of the address space is written. -/
theorem Memory.read_write (m : Memory) (a c : Nat) (v : Byte) (ha : a < 4096) :
    Memory.read (Memory.write m a v) c = if c = a then v else Memory.read m c := by
  unfold Memory.write
  simp only [Config.memSize, ha, if_true]
  split
  · next h => rw [Memory.read_drop, h]
  · rw [Memory.read_put]

/-- A write leaves every other byte alone, wherever it goes. -/
theorem Memory.read_write_ne (m : Memory) {a c : Nat} (v : Byte) (h : c ≠ a) :
    Memory.read (Memory.write m a v) c = Memory.read m c := by
  by_cases ha : a < 4096
  · simp [Memory.read_write m a c v ha, h]
  · simp [Memory.write, Config.memSize, ha]

/-- A byte after a run of bytes within the address space is written. -/
theorem Memory.read_writeBytes (bs : List Byte) (m : Memory) (a c : Nat) (h : a + bs.length ≤ 4096) :
    Memory.read (Memory.writeBytes m a bs) c =
      if hc : a ≤ c ∧ c < a + bs.length then bs[c - a]'(by omega) else Memory.read m c := by
  induction bs generalizing a with
  | nil => simp [Memory.writeBytes]
  | cons b bs ih =>
    simp only [List.length_cons] at h
    rw [Memory.writeBytes, Memory.read_write _ _ _ _ (by omega), ih (a + 1) (by omega)]
    by_cases h1 : c = a
    · subst h1; simp
    · by_cases h2 : a + 1 ≤ c ∧ c < a + 1 + bs.length
      · have h3 : a ≤ c ∧ c < a + (bs.length + 1) := by omega
        have e : c - a = (c - (a + 1)) + 1 := by omega
        simp [h1, h2, h3, e]
      · have h3 : ¬ (a ≤ c ∧ c < a + (b :: bs).length) := by rw [List.length_cons]; omega
        rw [if_neg h1, dif_neg h2, dif_neg h3]

/-- A run of bytes leaves every byte outside it alone, wherever it goes. -/
theorem Memory.read_writeBytes_ne (bs : List Byte) (m : Memory) (a c : Nat) (h : c < a ∨ a + bs.length ≤ c) :
    Memory.read (Memory.writeBytes m a bs) c = Memory.read m c := by
  induction bs generalizing a with
  | nil => rfl
  | cons b bs ih =>
    simp only [List.length_cons] at h
    rw [Memory.writeBytes, Memory.read_write_ne _ _ (by omega), ih (a + 1) (by omega)]

@[simp] theorem Memory.readBytes_length (m : Memory) (a n : Nat) : (m.readBytes a n).length = n := by
  simp [Memory.readBytes]

@[simp] theorem Memory.readBytes_getElem (m : Memory) (a n k : Nat) (h : k < (m.readBytes a n).length) :
    (m.readBytes a n)[k] = m.read (a + k) := by
  simp [Memory.readBytes]

/-! ### The memory of reset -/

/-- Zeroed memory reads as 0 everywhere. -/
@[simp] theorem Memory.read_zeroed (a : Nat) : Memory.read Memory.zeroed a = 0#8 := by
  rw [Memory.zeroed, Memory.read_writeBytes _ _ _ _ (by decide)]
  split
  · simp
  · next h =>
    rw [Memory.read_nil, Memory.unlisted, if_neg (by simpa using h)]

/-- A byte after reset: of the program, else of the font, else 0 (10_state R49). -/
theorem read_resetMemory (p : Params) (bs : List Byte) (a : Nat) (h : p.programStart.toNat + bs.length ≤ 4096) :
    (resetMemory p bs).read a =
      if hp : p.programStart.toNat ≤ a ∧ a < p.programStart.toNat + bs.length then
        bs[a - p.programStart.toNat]'(by omega)
      else if hf : p.fontBase.val ≤ a ∧ a < p.fontBase.val + 80 then
        p.fontTable[a - p.fontBase.val]'(by omega)
      else 0#8 := by
  have hb := p.fontBase.isLt
  rw [resetMemory, Memory.read_writeBytes _ _ _ _ h]
  split
  · rfl
  · rw [Memory.read_writeBytes _ _ _ _ (by simp; omega)]
    simp only [Vector.length_toList, Vector.getElem_toList, Memory.read_zeroed]

/-! ### The canonical form -/

theorem Memory.wf_cons (a : Nat) (v : Byte) (m : Memory) :
    Memory.wf ((a, v) :: m) = true ↔
      a < 4096 ∧ v ≠ Memory.unlisted a ∧ (∀ c ∈ m, a < c.1) ∧ Memory.wf m = true := by
  simp [Memory.wf, and_assoc]

theorem Memory.put_wf {m : Memory} {a : Nat} {v : Byte} (hm : Memory.wf m = true) (ha : a < 4096)
    (hv : v ≠ Memory.unlisted a) : Memory.wf (Memory.put m a v) = true := by
  induction m with
  | nil => simp [Memory.put, Memory.wf, ha, hv]
  | cons p m ih =>
    obtain ⟨b, w⟩ := p
    obtain ⟨hb, hw, hall, hm'⟩ := (Memory.wf_cons b w m).1 hm
    simp only [Memory.put]
    split
    · next h =>
      refine (Memory.wf_cons _ _ _).2 ⟨ha, hv, fun c hc => ?_, hm⟩
      rcases List.mem_cons.1 hc with rfl | hc
      · exact h
      · exact h.trans (hall c hc)
    · split
      · next h => subst h; exact (Memory.wf_cons _ _ _).2 ⟨ha, hv, hall, hm'⟩
      · next h1 h2 =>
        refine (Memory.wf_cons _ _ _).2 ⟨hb, hw, ?_, ih hm'⟩
        have hba : b < a := by omega
        clear ih hm hm' h1 h2
        induction m with
        | nil => intro c hc; simp [Memory.put] at hc; subst hc; exact hba
        | cons q m ih =>
          obtain ⟨d, u⟩ := q
          have hd : b < d := hall (d, u) (by simp)
          have hall' : ∀ c ∈ m, b < c.1 := fun c hc => hall c (by simp [hc])
          intro c hc
          simp only [Memory.put] at hc
          split at hc
          · rcases List.mem_cons.1 hc with rfl | hc
            · exact hba
            · exact hall c hc
          · split at hc
            · rcases List.mem_cons.1 hc with rfl | hc
              · exact hba
              · exact hall' c hc
            · rcases List.mem_cons.1 hc with rfl | hc
              · exact hd
              · exact ih hall' c hc

theorem Memory.drop_wf {m : Memory} {a : Nat} (hm : Memory.wf m = true) : Memory.wf (Memory.drop m a) = true := by
  induction m with
  | nil => rfl
  | cons p m ih =>
    obtain ⟨b, w⟩ := p
    obtain ⟨hb, hw, hall, hm'⟩ := (Memory.wf_cons b w m).1 hm
    have ih' : Memory.wf (List.filter (fun c => c.1 != a) m) = true := ih hm'
    simp only [Memory.drop, List.filter_cons]
    split
    · exact (Memory.wf_cons _ _ _).2 ⟨hb, hw, fun c hc => hall c (List.mem_filter.1 hc).1, ih'⟩
    · exact ih'

/-- Every write keeps the canonical form. -/
theorem Memory.write_wf {m : Memory} {a : Nat} {v : Byte} (hm : Memory.wf m = true) :
    Memory.wf (Memory.write m a v) = true := by
  unfold Memory.write
  split
  · split
    · exact Memory.drop_wf hm
    · next ha hv => exact Memory.put_wf hm ha hv
  · exact hm

/-- Every run of writes keeps the canonical form. -/
theorem Memory.writeBytes_wf {m : Memory} {a : Nat} {bs : List Byte} (hm : Memory.wf m = true) :
    Memory.wf (Memory.writeBytes m a bs) = true := by
  induction bs generalizing a with
  | nil => exact hm
  | cons b bs ih => exact Memory.write_wf ih

/-- A canonical memory reads as unlisted beyond the address space. -/
theorem Memory.read_of_ge {m : Memory} {a : Nat} (hm : Memory.wf m = true) (ha : 4096 ≤ a) :
    Memory.read m a = Memory.unlisted a := by
  induction m with
  | nil => rfl
  | cons p m ih =>
    obtain ⟨b, w⟩ := p
    obtain ⟨hb, -, -, hm'⟩ := (Memory.wf_cons b w m).1 hm
    rw [Memory.read_cons, if_neg (by omega), ih hm']

/-- The memory reset leaves is canonical. -/
theorem resetMemory_wf (p : Params) (bs : List Byte) : Memory.wf (resetMemory p bs) = true :=
  Memory.writeBytes_wf (Memory.writeBytes_wf (Memory.writeBytes_wf rfl))

/-- The memory of the reset state is canonical. -/
theorem State.reset_mem_wf : Memory.wf State.reset.mem = true := rfl

/-- Under the default parameters reset without a program lists nothing. -/
theorem resetMemory_default : resetMemory Params.default [] = [] := by decide +kernel

/-- Power-on under the default parameters is the state after reset. -/
theorem State.powerOn_default : State.powerOn Params.default = State.reset := by
  rw [State.powerOn, State.resetWith, resetMemory_default]; rfl

end Sys2Proof.Machine
end

