-- ==== Sys2Proof/Laws/PerInstr.lean ====
section
/-!
SUPPORT. What is true of each instruction as syntax, one lemma per constructor: its operands are in range, and the word
the encoder gives it lies in its own row of spec/opcode_table.json.
-/

/-- The instruction is well formed and its encoded word lies in its row of the opcode table. -/
def Sys2Proof.Laws.EncodedRow.Statement (i : Sys2Proof.Instr) : Prop :=
  i.wellFormed = true ∧ (Sys2Proof.rowOf i).holds (Sys2Proof.encodeWord i) = true

theorem Sys2Proof.Laws.EncodedRow.cls : EncodedRow.Statement .cls :=
  ⟨Sys2Proof.Instr.wellFormed_all _, by decide⟩

theorem Sys2Proof.Laws.EncodedRow.ret : EncodedRow.Statement .ret :=
  ⟨Sys2Proof.Instr.wellFormed_all _, by decide⟩

theorem Sys2Proof.Laws.EncodedRow.jp (nnn : Sys2Proof.Addr) : EncodedRow.Statement (.jp nnn) :=
  ⟨Sys2Proof.Instr.wellFormed_all _, beq_iff_eq.2 <|
    (Sys2Proof.mask_F000 _ 0x1#4).2 (by simp [Sys2Proof.encodeWord])⟩

theorem Sys2Proof.Laws.EncodedRow.call (nnn : Sys2Proof.Addr) : EncodedRow.Statement (.call nnn) :=
  ⟨Sys2Proof.Instr.wellFormed_all _, beq_iff_eq.2 <|
    (Sys2Proof.mask_F000 _ 0x2#4).2 (by simp [Sys2Proof.encodeWord])⟩

theorem Sys2Proof.Laws.EncodedRow.seImm (x : Sys2Proof.RegIdx) (nn : Sys2Proof.Byte) : EncodedRow.Statement (.seImm x nn) :=
  ⟨Sys2Proof.Instr.wellFormed_all _, beq_iff_eq.2 <|
    (Sys2Proof.mask_F000 _ 0x3#4).2 (by simp [Sys2Proof.encodeWord])⟩

theorem Sys2Proof.Laws.EncodedRow.sneImm (x : Sys2Proof.RegIdx) (nn : Sys2Proof.Byte) : EncodedRow.Statement (.sneImm x nn) :=
  ⟨Sys2Proof.Instr.wellFormed_all _, beq_iff_eq.2 <|
    (Sys2Proof.mask_F000 _ 0x4#4).2 (by simp [Sys2Proof.encodeWord])⟩

theorem Sys2Proof.Laws.EncodedRow.seReg (x y : Sys2Proof.RegIdx) : EncodedRow.Statement (.seReg x y) :=
  ⟨Sys2Proof.Instr.wellFormed_all _, beq_iff_eq.2 <|
    (Sys2Proof.mask_F00F _ 0x5#4 0x0#4).2 (by simp [Sys2Proof.encodeWord])⟩

theorem Sys2Proof.Laws.EncodedRow.ldImm (x : Sys2Proof.RegIdx) (nn : Sys2Proof.Byte) : EncodedRow.Statement (.ldImm x nn) :=
  ⟨Sys2Proof.Instr.wellFormed_all _, beq_iff_eq.2 <|
    (Sys2Proof.mask_F000 _ 0x6#4).2 (by simp [Sys2Proof.encodeWord])⟩

theorem Sys2Proof.Laws.EncodedRow.addImm (x : Sys2Proof.RegIdx) (nn : Sys2Proof.Byte) : EncodedRow.Statement (.addImm x nn) :=
  ⟨Sys2Proof.Instr.wellFormed_all _, beq_iff_eq.2 <|
    (Sys2Proof.mask_F000 _ 0x7#4).2 (by simp [Sys2Proof.encodeWord])⟩

theorem Sys2Proof.Laws.EncodedRow.ldReg (x y : Sys2Proof.RegIdx) : EncodedRow.Statement (.ldReg x y) :=
  ⟨Sys2Proof.Instr.wellFormed_all _, beq_iff_eq.2 <|
    (Sys2Proof.mask_F00F _ 0x8#4 0x0#4).2 (by simp [Sys2Proof.encodeWord])⟩

theorem Sys2Proof.Laws.EncodedRow.orReg (x y : Sys2Proof.RegIdx) : EncodedRow.Statement (.orReg x y) :=
  ⟨Sys2Proof.Instr.wellFormed_all _, beq_iff_eq.2 <|
    (Sys2Proof.mask_F00F _ 0x8#4 0x1#4).2 (by simp [Sys2Proof.encodeWord])⟩

theorem Sys2Proof.Laws.EncodedRow.andReg (x y : Sys2Proof.RegIdx) : EncodedRow.Statement (.andReg x y) :=
  ⟨Sys2Proof.Instr.wellFormed_all _, beq_iff_eq.2 <|
    (Sys2Proof.mask_F00F _ 0x8#4 0x2#4).2 (by simp [Sys2Proof.encodeWord])⟩

theorem Sys2Proof.Laws.EncodedRow.xorReg (x y : Sys2Proof.RegIdx) : EncodedRow.Statement (.xorReg x y) :=
  ⟨Sys2Proof.Instr.wellFormed_all _, beq_iff_eq.2 <|
    (Sys2Proof.mask_F00F _ 0x8#4 0x3#4).2 (by simp [Sys2Proof.encodeWord])⟩

theorem Sys2Proof.Laws.EncodedRow.addReg (x y : Sys2Proof.RegIdx) : EncodedRow.Statement (.addReg x y) :=
  ⟨Sys2Proof.Instr.wellFormed_all _, beq_iff_eq.2 <|
    (Sys2Proof.mask_F00F _ 0x8#4 0x4#4).2 (by simp [Sys2Proof.encodeWord])⟩

theorem Sys2Proof.Laws.EncodedRow.subReg (x y : Sys2Proof.RegIdx) : EncodedRow.Statement (.subReg x y) :=
  ⟨Sys2Proof.Instr.wellFormed_all _, beq_iff_eq.2 <|
    (Sys2Proof.mask_F00F _ 0x8#4 0x5#4).2 (by simp [Sys2Proof.encodeWord])⟩

theorem Sys2Proof.Laws.EncodedRow.shr (x : Sys2Proof.RegIdx) : EncodedRow.Statement (.shr x) :=
  ⟨Sys2Proof.Instr.wellFormed_all _, beq_iff_eq.2 <|
    (Sys2Proof.mask_F00F _ 0x8#4 0x6#4).2 (by simp [Sys2Proof.encodeWord])⟩

theorem Sys2Proof.Laws.EncodedRow.subnReg (x y : Sys2Proof.RegIdx) : EncodedRow.Statement (.subnReg x y) :=
  ⟨Sys2Proof.Instr.wellFormed_all _, beq_iff_eq.2 <|
    (Sys2Proof.mask_F00F _ 0x8#4 0x7#4).2 (by simp [Sys2Proof.encodeWord])⟩

theorem Sys2Proof.Laws.EncodedRow.shl (x : Sys2Proof.RegIdx) : EncodedRow.Statement (.shl x) :=
  ⟨Sys2Proof.Instr.wellFormed_all _, beq_iff_eq.2 <|
    (Sys2Proof.mask_F00F _ 0x8#4 0xE#4).2 (by simp [Sys2Proof.encodeWord])⟩

theorem Sys2Proof.Laws.EncodedRow.sneReg (x y : Sys2Proof.RegIdx) : EncodedRow.Statement (.sneReg x y) :=
  ⟨Sys2Proof.Instr.wellFormed_all _, beq_iff_eq.2 <|
    (Sys2Proof.mask_F00F _ 0x9#4 0x0#4).2 (by simp [Sys2Proof.encodeWord])⟩

theorem Sys2Proof.Laws.EncodedRow.ldIdx (nnn : Sys2Proof.Addr) : EncodedRow.Statement (.ldIdx nnn) :=
  ⟨Sys2Proof.Instr.wellFormed_all _, beq_iff_eq.2 <|
    (Sys2Proof.mask_F000 _ 0xA#4).2 (by simp [Sys2Proof.encodeWord])⟩

theorem Sys2Proof.Laws.EncodedRow.jpV0 (nnn : Sys2Proof.Addr) : EncodedRow.Statement (.jpV0 nnn) :=
  ⟨Sys2Proof.Instr.wellFormed_all _, beq_iff_eq.2 <|
    (Sys2Proof.mask_F000 _ 0xB#4).2 (by simp [Sys2Proof.encodeWord])⟩

theorem Sys2Proof.Laws.EncodedRow.rnd (x : Sys2Proof.RegIdx) (nn : Sys2Proof.Byte) : EncodedRow.Statement (.rnd x nn) :=
  ⟨Sys2Proof.Instr.wellFormed_all _, beq_iff_eq.2 <|
    (Sys2Proof.mask_F000 _ 0xC#4).2 (by simp [Sys2Proof.encodeWord])⟩

theorem Sys2Proof.Laws.EncodedRow.drw (x y : Sys2Proof.RegIdx) (n : Sys2Proof.Nibble) : EncodedRow.Statement (.drw x y n) :=
  ⟨Sys2Proof.Instr.wellFormed_all _, beq_iff_eq.2 <|
    (Sys2Proof.mask_F000 _ 0xD#4).2 (by simp [Sys2Proof.encodeWord])⟩

theorem Sys2Proof.Laws.EncodedRow.skp (x : Sys2Proof.RegIdx) : EncodedRow.Statement (.skp x) :=
  ⟨Sys2Proof.Instr.wellFormed_all _, beq_iff_eq.2 <|
    (Sys2Proof.mask_F0FF _ 0xE#4 0x9E#8).2 (by simp [Sys2Proof.encodeWord])⟩

theorem Sys2Proof.Laws.EncodedRow.sknp (x : Sys2Proof.RegIdx) : EncodedRow.Statement (.sknp x) :=
  ⟨Sys2Proof.Instr.wellFormed_all _, beq_iff_eq.2 <|
    (Sys2Proof.mask_F0FF _ 0xE#4 0xA1#8).2 (by simp [Sys2Proof.encodeWord])⟩

theorem Sys2Proof.Laws.EncodedRow.ldFromDt (x : Sys2Proof.RegIdx) : EncodedRow.Statement (.ldFromDt x) :=
  ⟨Sys2Proof.Instr.wellFormed_all _, beq_iff_eq.2 <|
    (Sys2Proof.mask_F0FF _ 0xF#4 0x07#8).2 (by simp [Sys2Proof.encodeWord])⟩

theorem Sys2Proof.Laws.EncodedRow.ldKey (x : Sys2Proof.RegIdx) : EncodedRow.Statement (.ldKey x) :=
  ⟨Sys2Proof.Instr.wellFormed_all _, beq_iff_eq.2 <|
    (Sys2Proof.mask_F0FF _ 0xF#4 0x0A#8).2 (by simp [Sys2Proof.encodeWord])⟩

theorem Sys2Proof.Laws.EncodedRow.ldDt (x : Sys2Proof.RegIdx) : EncodedRow.Statement (.ldDt x) :=
  ⟨Sys2Proof.Instr.wellFormed_all _, beq_iff_eq.2 <|
    (Sys2Proof.mask_F0FF _ 0xF#4 0x15#8).2 (by simp [Sys2Proof.encodeWord])⟩

theorem Sys2Proof.Laws.EncodedRow.ldSt (x : Sys2Proof.RegIdx) : EncodedRow.Statement (.ldSt x) :=
  ⟨Sys2Proof.Instr.wellFormed_all _, beq_iff_eq.2 <|
    (Sys2Proof.mask_F0FF _ 0xF#4 0x18#8).2 (by simp [Sys2Proof.encodeWord])⟩

theorem Sys2Proof.Laws.EncodedRow.addIdx (x : Sys2Proof.RegIdx) : EncodedRow.Statement (.addIdx x) :=
  ⟨Sys2Proof.Instr.wellFormed_all _, beq_iff_eq.2 <|
    (Sys2Proof.mask_F0FF _ 0xF#4 0x1E#8).2 (by simp [Sys2Proof.encodeWord])⟩

theorem Sys2Proof.Laws.EncodedRow.ldFont (x : Sys2Proof.RegIdx) : EncodedRow.Statement (.ldFont x) :=
  ⟨Sys2Proof.Instr.wellFormed_all _, beq_iff_eq.2 <|
    (Sys2Proof.mask_F0FF _ 0xF#4 0x29#8).2 (by simp [Sys2Proof.encodeWord])⟩

theorem Sys2Proof.Laws.EncodedRow.ldBcd (x : Sys2Proof.RegIdx) : EncodedRow.Statement (.ldBcd x) :=
  ⟨Sys2Proof.Instr.wellFormed_all _, beq_iff_eq.2 <|
    (Sys2Proof.mask_F0FF _ 0xF#4 0x33#8).2 (by simp [Sys2Proof.encodeWord])⟩

theorem Sys2Proof.Laws.EncodedRow.stRegs (x : Sys2Proof.RegIdx) : EncodedRow.Statement (.stRegs x) :=
  ⟨Sys2Proof.Instr.wellFormed_all _, beq_iff_eq.2 <|
    (Sys2Proof.mask_F0FF _ 0xF#4 0x55#8).2 (by simp [Sys2Proof.encodeWord])⟩

theorem Sys2Proof.Laws.EncodedRow.ldRegs (x : Sys2Proof.RegIdx) : EncodedRow.Statement (.ldRegs x) :=
  ⟨Sys2Proof.Instr.wellFormed_all _, beq_iff_eq.2 <|
    (Sys2Proof.mask_F0FF _ 0xF#4 0x65#8).2 (by simp [Sys2Proof.encodeWord])⟩
end

