-- ==== Sys2Proof/Laws/Registers.lean ====
section
/-!
SUPPORT. What the operations on registers, the stack, the keypad and diagnostics can do, one lemma each.
-/
namespace Sys2Proof.Machine

/-! ### Registers -/

/-- A register after one is written: the written one holds the byte, every other its old value. -/
@[simp] theorem State.reg_setReg (s : State) (r q : RegIdx) (b : Byte) :
    (s.setReg r b).reg q = if q = r then b else s.reg q := by
  by_cases h : q = r
  · subst h; simp [State.reg]
  · have : r.toNat ≠ q.toNat := fun e => h (BitVec.eq_of_toNat_eq e.symm)
    simp [State.reg, h, Vector.getElem_set_ne _ _ this]

/-- Writing the flag is writing register F. -/
@[simp] theorem State.reg_setFlag (s : State) (q : RegIdx) (b : Byte) :
    (s.setFlag b).reg q = if q = vf then b else s.reg q := State.reg_setReg s vf q b

/-- States with equal register files read alike. -/
theorem State.reg_congr {s t : State} (h : s.v = t.v) (q : RegIdx) : s.reg q = t.reg q := by
  simp [State.reg, h]

/-- Register files that read alike are equal. -/
theorem State.v_ext {s t : State} (h : ∀ q : RegIdx, s.reg q = t.reg q) : s.v = t.v := by
  apply Vector.ext
  intro k hk
  have := h (BitVec.ofNat 4 k)
  simpa [State.reg, Nat.mod_eq_of_lt hk] using this

/-- Register `j` after a run of registers from `k` is written. -/
theorem setRegsFrom_getElem (bs : List Byte) (v : Vector Byte 16) (k j : Nat) (hj : j < 16) :
    (setRegsFrom v k bs)[j] = if h : k ≤ j ∧ j < k + bs.length then bs[j - k]'(by omega) else v[j] := by
  induction bs generalizing v k with
  | nil => simp [setRegsFrom]
  | cons b bs ih =>
    rw [setRegsFrom, ih]
    rcases Nat.lt_trichotomy j k with hlt | rfl | hgt
    · simp [show ¬ k ≤ j by omega, show ¬ k + 1 ≤ j by omega, show ¬ k = j by omega]
    · simp
    · have e : j - k = (j - (k + 1)) + 1 := by omega
      by_cases h : j < k + (bs.length + 1)
      · have h' : k + 1 ≤ j ∧ j < k + 1 + bs.length := by omega
        have h'' : k ≤ j ∧ j < k + (bs.length + 1) := by omega
        simp [h', h'', e]
      · have h' : ¬ (k + 1 ≤ j ∧ j < k + 1 + bs.length) := by omega
        have h'' : ¬ (k ≤ j ∧ j < k + (b :: bs).length) := by rw [List.length_cons]; omega
        rw [dif_neg h', dif_neg h'']
        simp [show ¬ k = j by omega]

/-- A register after `x[0]` to `x[n-1]` are loaded. -/
theorem State.reg_setRegs (s : State) (bs : List Byte) (q : RegIdx) :
    (s.setRegs bs).reg q = if h : q.toNat < bs.length then bs[q.toNat] else s.reg q := by
  have := setRegsFrom_getElem bs s.v 0 q.toNat q.isLt
  simpa [State.reg] using this

@[simp] theorem State.regsUpTo_length (s : State) (r : RegIdx) : (s.regsUpTo r).length = r.toNat + 1 := by
  have := r.isLt
  simp [State.regsUpTo]; omega

theorem State.regsUpTo_getElem (s : State) (r : RegIdx) (k : Nat) (h : k < (s.regsUpTo r).length) :
    (s.regsUpTo r)[k] = s.reg (BitVec.ofNat 4 k) := by
  have hk : k < 16 := by have := r.isLt; simp at h; omega
  simp [State.regsUpTo, State.reg, Nat.mod_eq_of_lt hk]

/-! ### Skips and diagnostics -/

/-- A skip moves the pc by 2 when the condition holds and changes nothing else. -/
theorem State.skipIf_eq (s : State) (c : Bool) : s.skipIf c = s.setPc (if c then s.pc + 2#16 else s.pc) := by
  cases c <;> rfl

/-- A raise writes the diagnostic and the pc, nothing else. -/
theorem State.raise_eq (s : State) (d : Diag) : s.raise d = { s with diag := some d, pc := s.failedPc } := rfl

theorem State.failedPc_advance {s : State} (h : s.params.failPc = .advance) : s.failedPc = s.pc := by
  simp [State.failedPc, h]

theorem State.failedPc_hold {s : State} (h : s.params.failPc = .hold) : s.failedPc = s.pc - 2#16 := by
  simp [State.failedPc, h, State.instrAddr]

/-- A memory instruction has its effect when its range is valid. -/
theorem State.checkRange_ok {s t : State} {i : Instr} {n : Nat} (h : rangeOk s.idx n = true) :
    s.checkRange i n t = t := by simp [State.checkRange, h]

/-- A memory instruction raises when its range is not valid. -/
theorem State.checkRange_oob {s t : State} {i : Instr} {n : Nat} (h : rangeOk s.idx n = false) :
    s.checkRange i n t = s.raise (.memOob s.instrAddr (encodeWord i) (oobAddr s.idx)) := by
  simp [State.checkRange, h]

theorem rangeOk_iff (base : Word) (n : Nat) : rangeOk base n = true ↔ n = 0 ∨ base.toNat + n ≤ 4096 := by
  simp [rangeOk]

/-- The key check reports or does nothing; either way only `diag` can differ. -/
theorem State.noteKey_eq (s : State) (i : Instr) (k : Byte) :
    s.noteKey i k =
      { s with diag := if 16 ≤ k.toNat then some (.keyRange s.instrAddr (encodeWord i) k) else s.diag } := by
  unfold State.noteKey; split <;> rfl

/-! ### The parameters -/

/-- The address of a glyph lies in the font, whatever FONT_BASE is. -/
theorem State.glyphAddr_toNat (s : State) (b : Byte) :
    (s.glyphAddr b).toNat = s.params.fontBase.val + 5 * (b.toNat % 16) := by
  have h : (b &&& 0x0F#8).toNat = b.toNat % 16 := by revert b; decide
  have := s.params.fontBase.isLt
  rw [State.glyphAddr, h, BitVec.toNat_ofNat]
  simp only [Config.glyphSize]
  omega

/-- A program is accepted when it is not empty and ends in memory. -/
theorem loadFits_iff (p : Params) (bs : List Byte) :
    loadFits p bs = true ↔ 1 ≤ bs.length ∧ p.programStart.toNat + bs.length ≤ 4096 := by
  rw [loadFits, Bool.and_eq_true, bne_iff_ne, decide_eq_true_iff, Nat.one_le_iff_ne_zero]

/-! ### The stack -/

/-- A push on a stack that is not full. -/
theorem State.push_of_lt {s : State} (h : s.sp.val < 16) :
    s.push = some { s with stack := s.stack.set s.sp.val s.pc h, sp := ⟨s.sp.val + 1, by omega⟩ } := by
  simp [State.push, h]

/-- A push on a full stack gives nothing. -/
theorem State.push_of_full {s : State} (h : ¬ s.sp.val < 16) : s.push = none := by simp [State.push, h]

/-- A pop of a stack that is not empty. -/
theorem State.pop_of_pos {s : State} (h : 0 < s.sp.val) :
    s.pop = some { s with sp := ⟨s.sp.val - 1, by omega⟩, pc := s.stack[s.sp.val - 1]'(by omega) } := by
  simp [State.pop, h]

/-- A pop of an empty stack gives nothing. -/
theorem State.pop_of_empty {s : State} (h : ¬ 0 < s.sp.val) : s.pop = none := by simp [State.pop, h]

/-! ### The keypad -/

/-- The key scan finds the lowest-numbered pressed key, or there is none. -/
theorem State.firstKey_cases (s : State) :
    (∃ k, s.firstKey = some k ∧ k < 16 ∧ s.key k = true ∧ ∀ j < k, s.key j = false) ∨
    (s.firstKey = none ∧ ∀ k < 16, s.key k = false) := by
  rcases h : s.firstKey with _ | k
  · refine .inr ⟨rfl, fun k hk => ?_⟩
    have := List.find?_eq_none.1 h k (List.mem_range.2 hk)
    simpa using this
  · refine .inl ⟨k, rfl, ?_⟩
    have h' : (List.range Config.numKeys).find? (fun k => s.key k) = some k := h
    rw [List.find?_range_eq_some] at h'
    obtain ⟨h1, h2, h3⟩ := h'
    exact ⟨by simpa using h2, by simpa using h1, fun j hj => by simpa using h3 j hj⟩

/-- Keys at and above 16 do not exist and read as not pressed. -/
theorem State.key_of_ge (s : State) {k : Nat} (h : 16 ≤ k) : s.key k = false := by
  simp [State.key, h]

/-! ### Timers -/

theorem countDown_toNat (b : Byte) : (countDown b).toNat = b.toNat - 1 := by
  unfold countDown
  split
  · next h => subst h; rfl
  · next h =>
    have hb : b.toNat ≠ 0 := fun e => h (BitVec.eq_of_toNat_eq e)
    have := b.isLt
    simp [BitVec.toNat_sub]; omega

end Sys2Proof.Machine
end

