-- ==== Sys2Proof/Tests/Slice0.lean ====
section
/-!
SUPPORT. The model's own tests: ill-formed terms the checks refuse; words written out from the encodings of 30_encoding
R102; single steps of 95_test_vectors (the vector's id is in each test's comment); and, for each obligation with
premises, a state and operands that meet them. No expected value comes from the model.
-/
open Sys2Proof Sys2Proof.Machine

namespace Sys2Proof.Tests

/-! ### WellFormed: an ill-formed term for each check (30_encoding R113) -/

theorem test_wellFormed_reg : WellFormed.reg 15 = true ∧ WellFormed.reg 16 = false := by decide
theorem test_wellFormed_addr : WellFormed.addr 0xFFF = true ∧ WellFormed.addr 0x1000 = false := by decide
theorem test_wellFormed_byte : WellFormed.byte 0xFF = true ∧ WellFormed.byte 0x100 = false := by decide
theorem test_wellFormed_count : WellFormed.count 0xF = true ∧ WellFormed.count 0x10 = false := by decide
theorem test_wellFormed_operand : WellFormed.operand (.v 16) = false ∧ WellFormed.operand (.num 0x1000) = false := by decide
theorem test_wellFormed_instr : Instr.wellFormed (.drw 0xF#4 0xF#4 0xF#4) = true := by decide

/-- The assembler refuses an operand too wide for its field, and a form the syntax does not have (R113). -/
theorem test_assemble_refuses :
    assemble "LD" [.v 16, .num 0] = none ∧ assemble "LD" [.v 0, .num 0x100] = none ∧
    assemble "JP" [.num 0x1000] = none ∧ assemble "DRW" [.v 0, .v 1, .num 16] = none ∧
    assemble "JP" [.v 1, .num 0x300] = none := by decide

/-- R113: `ADD V3, V4` is 0x8344 and `DRW V1, V2, 0x5` is 0xD125. -/
theorem test_assemble_words :
    (assemble "ADD" [.v 3, .v 4]).map encodeWord = some 0x8344#16 ∧
    (assemble "DRW" [.v 1, .v 2, .num 5]).map encodeWord = some 0xD125#16 := by decide

/-- SRC-8: 0x6A3F names register A and 0x3F; an unknown opcode gives the unknown label. -/
theorem test_disassemble :
    disassembleWord 0x6A3F#16 = "LD VA, 0x3F" ∧ disassembleWord 0x5121#16 = "UNKNOWN 0x5121" := by decide

/-! ### Decoding: a word of every row, bit by bit from the formats of R102 -/

theorem test_decode_cls : decodeTableWord 16 0b0000_0000_1110_0000 = some .cls := by decide
theorem test_decode_ret : decodeTableWord 16 0b0000_0000_1110_1110 = some .ret := by decide
theorem test_decode_jp : decodeTableWord 16 0b0001_0010_0011_0100 = some (.jp 0x234#12) := by decide
theorem test_decode_call : decodeTableWord 16 0b0010_0010_0000_1000 = some (.call 0x208#12) := by decide
theorem test_decode_seImm : decodeTableWord 16 0b0011_0101_1010_0001 = some (.seImm 0x5#4 0xA1#8) := by decide
theorem test_decode_sneImm : decodeTableWord 16 0b0100_0010_0000_0111 = some (.sneImm 0x2#4 0x07#8) := by decide
theorem test_decode_seReg : decodeTableWord 16 0b0101_0001_0010_0000 = some (.seReg 0x1#4 0x2#4) := by decide
theorem test_decode_ldImm : decodeTableWord 16 0b0110_1010_0011_1111 = some (.ldImm 0xA#4 0x3F#8) := by decide
theorem test_decode_addImm : decodeTableWord 16 0b0111_0000_1111_1111 = some (.addImm 0x0#4 0xFF#8) := by decide
theorem test_decode_ldReg : decodeTableWord 16 0b1000_0001_0010_0000 = some (.ldReg 0x1#4 0x2#4) := by decide
theorem test_decode_orReg : decodeTableWord 16 0b1000_0001_0010_0001 = some (.orReg 0x1#4 0x2#4) := by decide
theorem test_decode_andReg : decodeTableWord 16 0b1000_0001_0010_0010 = some (.andReg 0x1#4 0x2#4) := by decide
theorem test_decode_xorReg : decodeTableWord 16 0b1000_0001_0010_0011 = some (.xorReg 0x1#4 0x2#4) := by decide
theorem test_decode_addReg : decodeTableWord 16 0b1000_0011_0100_0100 = some (.addReg 0x3#4 0x4#4) := by decide
theorem test_decode_subReg : decodeTableWord 16 0b1000_0011_0100_0101 = some (.subReg 0x3#4 0x4#4) := by decide
theorem test_decode_shr : decodeTableWord 16 0b1000_0011_0100_0110 = some (.shr 0x3#4) := by decide
theorem test_decode_subnReg : decodeTableWord 16 0b1000_0011_0100_0111 = some (.subnReg 0x3#4 0x4#4) := by decide
theorem test_decode_shl : decodeTableWord 16 0b1000_0011_0100_1110 = some (.shl 0x3#4) := by decide
theorem test_decode_sneReg : decodeTableWord 16 0b1001_0001_0010_0000 = some (.sneReg 0x1#4 0x2#4) := by decide
theorem test_decode_ldIdx : decodeTableWord 16 0b1010_0011_0001_0000 = some (.ldIdx 0x310#12) := by decide
theorem test_decode_jpV0 : decodeTableWord 16 0b1011_0101_0000_0000 = some (.jpV0 0x500#12) := by decide
theorem test_decode_rnd : decodeTableWord 16 0b1100_0011_0000_1111 = some (.rnd 0x3#4 0x0F#8) := by decide
theorem test_decode_drw : decodeTableWord 16 0b1101_0001_0010_0101 = some (.drw 0x1#4 0x2#4 0x5#4) := by decide
theorem test_decode_skp : decodeTableWord 16 0b1110_0101_1001_1110 = some (.skp 0x5#4) := by decide
theorem test_decode_sknp : decodeTableWord 16 0b1110_0101_1010_0001 = some (.sknp 0x5#4) := by decide
theorem test_decode_ldFromDt : decodeTableWord 16 0b1111_0001_0000_0111 = some (.ldFromDt 0x1#4) := by decide
theorem test_decode_ldKey : decodeTableWord 16 0b1111_0010_0000_1010 = some (.ldKey 0x2#4) := by decide
theorem test_decode_ldDt : decodeTableWord 16 0b1111_0110_0001_0101 = some (.ldDt 0x6#4) := by decide
theorem test_decode_ldSt : decodeTableWord 16 0b1111_0110_0001_1000 = some (.ldSt 0x6#4) := by decide
theorem test_decode_addIdx : decodeTableWord 16 0b1111_0010_0001_1110 = some (.addIdx 0x2#4) := by decide
theorem test_decode_ldFont : decodeTableWord 16 0b1111_1011_0010_1001 = some (.ldFont 0xB#4) := by decide
theorem test_decode_ldBcd : decodeTableWord 16 0b1111_0100_0011_0011 = some (.ldBcd 0x4#4) := by decide
theorem test_decode_stRegs : decodeTableWord 16 0b1111_0010_0101_0101 = some (.stRegs 0x2#4) := by decide
theorem test_decode_ldRegs : decodeTableWord 16 0b1111_0010_0110_0101 = some (.ldRegs 0x2#4) := by decide

/-- Unknown words next to rows (R104, R107): strict on every fixed digit. -/
theorem test_decode_unknown :
    decodeTableWord 16 0x0000 = none ∧ decodeTableWord 16 0x01E0 = none ∧ decodeTableWord 16 0x5121 = none ∧
    decodeTableWord 16 0x8128 = none ∧ decodeTableWord 16 0x9121 = none ∧ decodeTableWord 16 0xE59F = none ∧
    decodeTableWord 16 0xF0FF = none := by decide

/-- One byte is no instruction (R100); the second byte is the low one (20_memory R74). -/
theorem test_decode_bytes :
    decode [0x12#8] = .error .truncated ∧ decode [0x12#8, 0x34#8, 0x56#8] = .ok (.jp 0x234#12, [0x56#8]) := by decide

/-! ### Steps: the vectors of 95_test_vectors -/

/-- One cycle of the opcode `w`, placed at the pc. -/
def run (s : State) (w : Nat) : State :=
  match step (s.withFetchWord 16 w) with
  | .next t => t
  | .fault _ => s
  | .refused _ => s

/-- One cycle of what memory holds at the pc. -/
def cycle (s : State) : State :=
  match step s with
  | .next t => t
  | .fault _ => s
  | .refused _ => s

/-- The default parameters but for FAIL_PC_POLICY. -/
def onHold : Params := { Params.default with failPc := .hold }

/-- A machine with the font at its highest base, all of whose bytes are 0xAA, and programs from 0x300. -/
def other : Params :=
  { fontBase := 0x1B0, programStart := 0x300#12, fontTable := Vector.replicate 80 0xAA#8, failPc := .advance }

/-- The same machine with programs from 0x1B1, inside the font. -/
def low : Params := { other with programStart := 0x1B1#12 }

/-- The reset state with the pc at `a`. -/
def atPc (a : Nat) : State := State.reset.setPc (BitVec.ofNat 16 a)

/-- The reset state with two registers set. -/
def with2 (x : RegIdx) (a : Byte) (y : RegIdx) (b : Byte) : State := (State.reset.setReg x a).setReg y b

/-- The reset state with one register set. -/
def with1 (x : RegIdx) (a : Byte) : State := State.reset.setReg x a

/-- The reset state with `I` set. -/
def withI (i : Nat) : State := State.reset.setIdx (BitVec.ofNat 16 i)

/-- CYC-1, CYC-2: big-endian fetch, up to the last legal address. -/
theorem test_cyc_fetch : (run State.reset 0x1234).pc = 0x234#16 ∧ (run (atPc 0xFFE) 0x1234).pc = 0x234#16 := by decide

/-- CYC-3: fetch out of bounds; the timers still run. -/
theorem test_cyc_oob :
    let t := cycle ((atPc 0xFFF).writeTimers 3#8 1#8)
    t.diag = some (.fetchOob 0xFFF#16) ∧ t.pc = 0x1001#16 ∧ t.dt = 2#8 ∧ t.st = 0#8 ∧ t.tone = true := by decide

/-- CYC-4: the pc wraps. -/
theorem test_cyc_wrap : (cycle (atPc 0xFFFE)).diag = some (.fetchOob 0xFFFE#16) ∧ (cycle (atPc 0xFFFE)).pc = 0#16 := by
  decide

/-- CYC-5 and RST-1: power-on runs an unknown opcode. -/
theorem test_cyc_unknown :
    (cycle State.reset).diag = some (.unknownOpcode 0x200#16 0x0000#16) ∧ (cycle State.reset).pc = 0x202#16 := by decide

/-- CYC-6, CYC-7, CYC-8: the timers and the tone. -/
theorem test_cyc_tone :
    (run (State.reset.writeTimers 1#8 1#8) 0x6000).tone = true ∧ (run (State.reset.writeTimers 0#8 2#8) 0x6000).tone = false ∧
    (run State.reset 0x6000).tone = false ∧ (run State.reset 0x6000).dt = 0#8 := by decide

/-- CYC-9: an odd pc is legal. -/
theorem test_cyc_odd : (run (atPc 0x201) 0x6A3F).reg 0xA#4 = 0x3F#8 ∧ (run (atPc 0x201) 0x6A3F).pc = 0x203#16 := by decide

/-- CYC-11: the timer update runs in a diagnostic cycle. -/
theorem test_cyc_diag_timer : (run (State.reset.writeTimers 0#8 5#8) 0x0000).st = 4#8 := by decide

/-- CLS-1. -/
theorem test_cls :
    let t := run (State.reset.setFb (FrameBuf.flip (FrameBuf.flip FrameBuf.clear 0 0) 63 31)) 0x00E0
    t.fb = FrameBuf.clear ∧ t.pc = 0x202#16 := by decide

/-- DRW-3: a glyph over two edges of the screen: 14 pixels (bit x of row y), no collision. -/
theorem test_drw_wraps :
    let t := run ((with2 0x1#4 62#8 0x2#4 30#8).setIdx 0x050#16) 0xD125
    t.reg vf = 0#8 ∧ t.fb[30] = 0xC000000000000003#64 ∧ t.fb[31] = 0x4000000000000002#64 ∧
    t.fb[0] = 0x4000000000000002#64 ∧ t.fb[1] = 0x4000000000000002#64 ∧ t.fb[2] = 0xC000000000000003#64 ∧
    t.fb[3] = 0#64 := by decide

/-- DRW-4 and DRW-5: a collision; the old VF is the coordinate. -/
theorem test_drw_collides :
    let m := State.reset.setMem (Memory.write [] 0x300 0x80#8)
    let s := (m.setIdx 0x300#16).setFb (FrameBuf.flip (FrameBuf.flip FrameBuf.clear 0 0) 1 0)
    (run s 0xD121).reg vf = 1#8 ∧ (run s 0xD121).fb.lit 0 0 = false ∧ (run s 0xD121).fb.lit 1 0 = true ∧
    (run ((m.setIdx 0x300#16).setReg vf 5#8) 0xDF01).fb.lit 5 0 = true := by decide

/-- RET-1. -/
theorem test_ret :
    let t := run { atPc 0x300 with sp := 1, stack := State.reset.stack.set 0 0x206#16 } 0x00EE
    t.pc = 0x206#16 ∧ t.sp = 0 ∧ t.getStack[0]? = some 0x206#16 := by decide

/-- SRC-6: a return on an empty stack, under both policies. -/
theorem test_ret_underflow :
    (run State.reset 0x00EE).diag = some (.stackUnderflow 0x200#16 0x00EE#16) ∧ (run State.reset 0x00EE).pc = 0x202#16 ∧
    (run { State.reset with params := onHold } 0x00EE).pc = 0x200#16 := by decide

/-- CALL-1. -/
theorem test_call :
    let t := run (atPc 0x204) 0x2208
    t.pc = 0x208#16 ∧ t.sp = 1 ∧ t.getStack[0]? = some 0x206#16 := by decide

/-- CALL-2, CALL-3: a call on a full stack. -/
theorem test_call_overflow :
    let t := run { atPc 0x204 with sp := 16 } 0x2208
    t.diag = some (.stackOverflow 0x204#16 0x2208#16) ∧ t.sp = 16 ∧ t.pc = 0x206#16 ∧
    (run { atPc 0x204 with sp := 16, params := onHold } 0x2208).pc = 0x204#16 := by decide

/-- JP-2, JP-3. -/
theorem test_jp : (run State.reset 0x1203).pc = 0x203#16 ∧ (run State.reset 0x1200).pc = 0x200#16 := by decide

/-- JPV-2, JPV-3. -/
theorem test_jpV0 : (run (with1 0#4 0xFF#8) 0xBFFF).pc = 0x10FE#16 ∧ (run (with1 5#4 0x20#8) 0xB500).pc = 0x500#16 := by
  decide

/-- SKP-1, SKP-2, SKP-17. -/
theorem test_seImm :
    (run (atPc 0x208) 0x3000).pc = 0x20C#16 ∧ (run (atPc 0x208) 0x3001).pc = 0x20A#16 ∧
    (run (atPc 0xFFE) 0x3000).pc = 0x1002#16 := by decide

/-- SKP-3, SKP-4 (at 0x200). -/
theorem test_sneImm :
    (run (with1 2#4 7#8) 0x4207).pc = 0x202#16 ∧ (run (with1 2#4 7#8) 0x4208).pc = 0x204#16 := by decide

/-- SKP-5, SKP-7. -/
theorem test_seReg :
    (run (with2 1#4 9#8 2#4 9#8) 0x5120).pc = 0x204#16 ∧
    (run (with2 1#4 9#8 2#4 9#8) 0x5121).diag = some (.unknownOpcode 0x200#16 0x5121#16) := by decide

/-- SKP-8, SKP-9. -/
theorem test_sneReg :
    (run (with2 1#4 1#8 2#4 2#8) 0x9120).pc = 0x204#16 ∧ (run State.reset 0x9110).pc = 0x202#16 := by decide

/-- SKP-11, SKP-15. -/
theorem test_skp :
    (run ((with1 5#4 0xA#8).setKey 0xA true) 0xE59E).pc = 0x204#16 ∧
    (run ((with1 5#4 0x1A#8).setKey 0xA true) 0xE59E).pc = 0x202#16 ∧
    (run ((with1 5#4 0x1A#8).setKey 0xA true) 0xE59E).diag = some (.keyRange 0x200#16 0xE59E#16 26#8) := by decide

/-- SKP-13, SKP-14, SKP-16. -/
theorem test_sknp :
    (run (with1 5#4 0xA#8) 0xE5A1).pc = 0x204#16 ∧ (run ((with1 5#4 0xA#8).setKey 0xA true) 0xE5A1).pc = 0x202#16 ∧
    (run (with1 5#4 0x1A#8) 0xE5A1).diag = some (.keyRange 0x200#16 0xE5A1#16 26#8) := by decide

/-- ALU-1. -/
theorem test_ldImm : (run State.reset 0x6A3F).reg 0xA#4 = 0x3F#8 := by decide

/-- ALU-2. -/
theorem test_addImm :
    (run (with2 0#4 0xFF#8 vf 7#8) 0x7001).reg 0#4 = 0#8 ∧ (run (with2 0#4 0xFF#8 vf 7#8) 0x7001).reg vf = 7#8 := by decide

/-- ALU-3. -/
theorem test_ldReg : (run (with1 2#4 0x44#8) 0x8120).reg 1#4 = 0x44#8 := by decide

/-- ALU-4 (V1 and V2; VF in ALU-6). -/
theorem test_orReg : (run (with2 1#4 0x0F#8 2#4 0xF0#8) 0x8121).reg 1#4 = 0xFF#8 := by decide

/-- ALU-5. -/
theorem test_andReg : (run (with2 1#4 0x3C#8 2#4 0x0F#8) 0x8122).reg 1#4 = 0x0C#8 := by decide

/-- ALU-6, ALU-28. -/
theorem test_xorReg :
    (run (with2 1#4 0x5A#8 vf 7#8) 0x8113).reg 1#4 = 0#8 ∧ (run (with2 1#4 0x5A#8 vf 7#8) 0x8113).reg vf = 7#8 ∧
    (run (with2 1#4 0xF0#8 2#4 0xFF#8) 0x8123).reg 1#4 = 0x0F#8 := by decide

/-- SRC-1, ALU-8. -/
theorem test_addReg :
    (run (with2 1#4 0xFF#8 2#4 1#8) 0x8124).reg 1#4 = 0#8 ∧ (run (with2 1#4 0xFF#8 2#4 1#8) 0x8124).reg vf = 1#8 ∧
    (run (with2 1#4 0xFF#8 2#4 0#8) 0x8124).reg vf = 0#8 := by decide

/-- ALU-9 and ALU-19: VF as the destination and as the source. -/
theorem test_addReg_vf :
    (run (with2 vf 0x80#8 1#4 0x80#8) 0x8F14).reg vf = 1#8 ∧ (run (with2 1#4 2#8 vf 1#8) 0x81F4).reg 1#4 = 3#8 := by decide

/-- SRC-4, ALU-7, ALU-20. -/
theorem test_subReg :
    (run (with2 1#4 3#8 2#4 5#8) 0x8125).reg 1#4 = 0xFE#8 ∧ (run (with2 1#4 7#8 2#4 7#8) 0x8125).reg vf = 0#8 ∧
    (run (with2 vf 5#8 1#4 3#8) 0x8F15).reg vf = 1#8 := by decide

/-- ALU-10, ALU-14, ALU-16. -/
theorem test_shr :
    (run (with1 3#4 5#8) 0x8306).reg 3#4 = 2#8 ∧ (run (with1 3#4 5#8) 0x8306).reg vf = 1#8 ∧
    (run (with1 vf 3#8) 0x8FF6).reg vf = 0#8 ∧ (run (with2 3#4 4#8 4#4 0xFF#8) 0x8346).reg 3#4 = 2#8 := by decide

/-- ALU-11, ALU-12, ALU-23. -/
theorem test_subnReg :
    (run (with2 1#4 3#8 2#4 5#8) 0x8127).reg 1#4 = 2#8 ∧ (run (with2 1#4 3#8 2#4 5#8) 0x8127).reg vf = 1#8 ∧
    (run (with2 1#4 9#8 2#4 9#8) 0x8127).reg vf = 0#8 ∧ (run (with2 vf 2#8 2#4 1#8) 0x8F27).reg vf = 0#8 := by decide

/-- ALU-13, ALU-15. -/
theorem test_shl :
    (run (with1 3#4 0x81#8) 0x830E).reg 3#4 = 2#8 ∧ (run (with1 3#4 0x81#8) 0x830E).reg vf = 1#8 ∧
    (run (with1 vf 0x80#8) 0x8F0E).reg vf = 2#8 := by decide

/-- ALU-25: a mask of 0 gives 0 whatever the random byte is. -/
theorem test_rnd : (run (with1 vf 9#8) 0xCF00).reg vf = 0#8 := BitVec.and_zero

/-- IDX-1. -/
theorem test_ldIdx : (run State.reset 0xA300).idx = 0x300#16 := by decide

/-- IDX-3, IDX-4. -/
theorem test_addIdx :
    (run ((with1 2#4 1#8).setIdx 0xFFFF#16) 0xF21E).idx = 0#16 ∧
    (run ((with1 2#4 1#8).setIdx 0x0FFF#16) 0xF21E).idx = 0x1000#16 := by decide

/-- IDX-5, IDX-6. -/
theorem test_ldFont :
    (run (with1 0#4 0x0B#8) 0xF029).idx = 0x087#16 ∧ (run (with1 0#4 0x1A#8) 0xF029).idx = 0x082#16 := by decide

/-- IDX-7. -/
theorem test_ldBcd : (run ((with1 0#4 0xFE#8).setIdx 0x300#16) 0xF033).mem.readBytes 0x300 3 = [2#8, 5#8, 4#8] := by decide

/-- IDX-10, IDX-11: the last legal range, and one byte more. -/
theorem test_ldBcd_range :
    (run ((with1 0#4 7#8).setIdx 0xFFD#16) 0xF033).mem.readBytes 0xFFD 3 = [0#8, 0#8, 7#8] ∧
    (run ((with1 0#4 7#8).setIdx 0xFFE#16) 0xF033).diag = some (.memOob 0x200#16 0xF033#16 0x1000) ∧
    (run ((with1 0#4 7#8).setIdx 0xFFE#16) 0xF033).mem.readBytes 0xFFE 2 = [0#8, 0#8] := by decide

/-- IDX-12 (V0 and V1). -/
theorem test_stRegs :
    let t := run ((with2 0#4 2#8 1#4 5#8).setIdx 0x310#16) 0xF155
    t.mem.readBytes 0x310 3 = [2#8, 5#8, 0#8] ∧ t.idx = 0x310#16 := by decide

/-- IDX-14, IDX-18: one byte too many, and the last byte. -/
theorem test_stRegs_range :
    (run (withI 0xFF1) 0xFF55).diag = some (.memOob 0x200#16 0xFF55#16 0x1000) ∧
    (run ((with1 0#4 9#8).setIdx 0xFFF#16) 0xF055).mem.read 0xFFF = 9#8 := by decide

/-- IDX-15. -/
theorem test_ldRegs :
    let t := run ((withI 0x300).setMem (Memory.writeBytes [] 0x300 [2#8, 5#8, 4#8])) 0xF265
    t.reg 0#4 = 2#8 ∧ t.reg 1#4 = 5#8 ∧ t.reg 2#4 = 4#8 ∧ t.reg 3#4 = 0#8 ∧ t.idx = 0x300#16 := by decide

/-- IDX-17. -/
theorem test_ldRegs_range :
    let t := run ((with1 0#4 9#8).setIdx 0x1000#16) 0xF065
    t.diag = some (.memOob 0x200#16 0xF065#16 0x1000) ∧ t.reg 0#4 = 9#8 := by decide

/-- TIM-1. -/
theorem test_ldFromDt :
    (run (State.reset.writeTimers 4#8 0#8) 0xF107).reg 1#4 = 4#8 ∧ (run (State.reset.writeTimers 4#8 0#8) 0xF107).dt = 3#8 := by
  decide

/-- TIM-2. -/
theorem test_ldDt : (run (with1 0#4 5#8) 0xF015).dt = 4#8 := by decide

/-- TIM-6, TIM-7. -/
theorem test_ldSt :
    (run (with1 0#4 1#8) 0xF018).tone = true ∧ (run (State.reset.writeTimers 0#8 1#8) 0xF018).tone = false := by decide

/-- TIM-8, TIM-9 (at 0x200). -/
theorem test_ldKey :
    (run ((State.reset.setKey 7 true).setKey 0xA true) 0xF20A).reg 2#4 = 7#8 ∧
    (run (State.reset.writeTimers 5#8 0#8) 0xF20A).pc = 0x200#16 ∧
    (run (State.reset.writeTimers 5#8 0#8) 0xF20A).dt = 4#8 := by decide

/-! ### Host operations -/

/-- The codes and the record of 60_exceptions R241, R242. -/
theorem test_diag_record :
    diagCode none = 0 ∧ diagCode (some (.unknownOpcode 0x200#16 0#16)) = 1 ∧
    diagCode (some (.stackOverflow 0x204#16 0x2208#16)) = 2 ∧ diagCode (some (.stackUnderflow 0x200#16 0x00EE#16)) = 3 ∧
    diagCode (some (.fetchOob 0xFFF#16)) = 4 ∧ diagCode (some (.memOob 0x200#16 0xF065#16 0x1000)) = 5 ∧
    diagCode (some (.keyRange 0x210#16 0xE59E#16 26#8)) = 6 ∧ Diag.opcode (.fetchOob 0xFFF#16) = none ∧
    Diag.extra (.keyRange 0x210#16 0xE59E#16 26#8) = some 26 ∧ (cycle State.reset).noDiagSoFar = false ∧
    (run State.reset 0x6000).noDiagSoFar = true := by decide

/-- RST-4, IDX-20: reset releases the keys and restores the font. -/
theorem test_reset :
    (State.reset.setKey 5 true).hostReset.isKeyDown 5 = false ∧
    ((State.reset.setMem (Memory.write [] 0x050 0xFF#8)).hostReset).mem.read 0x050 = 0xF0#8 := by
  decide +kernel

/-- R16, R17, R18 with other values: the font at 0x1B0, its last byte at 0x1FF and nothing at 0x050; the pc and the
program at 0x300; FX29 of glyph F at 0x1B0 + 75. -/
theorem test_other_parameters :
    let s := State.powerOn other
    let t := (s.loadProgram [0x12#8, 0x34#8]).2
    s.mem.read 0x1B0 = 0xAA#8 ∧ s.mem.read 0x1FF = 0xAA#8 ∧ s.mem.read 0x050 = 0#8 ∧ s.mem.read 0x200 = 0#8 ∧
    s.pc = 0x300#16 ∧ t.mem.read 0x300 = 0x12#8 ∧ (cycle t).pc = 0x234#16 ∧
    (run (s.setReg 0#4 0x0F#8) 0xF029).idx = 0x1FB#16 := by decide +kernel

/-- SRC-12, HOST-1, HOST-2. -/
theorem test_host_getters :
    State.reset.setKey 16 true = State.reset ∧ (with1 3#4 7#8).getRegister 3 = 7#8 ∧ (with1 3#4 7#8).getRegister 16 = 0#8 ∧
    (State.reset.setKey 2 true).isKeyDown 2 = true ∧ (State.reset.setKey 2 true).isKeyDown 18 = false := by decide

/-- SRC-13: an empty program is refused and nothing changes; a small one is loaded. -/
theorem test_loadProgram :
    State.reset.loadProgram [] = (.failure, State.reset) ∧
    (State.reset.loadProgram [0x12#8, 0x00#8]).1 = .success ∧
    (State.reset.loadProgram [0x12#8, 0x00#8]).2.mem.read 0x200 = 0x12#8 := by decide +kernel

/-- SRC-14. -/
theorem test_peekOpcode :
    let s := State.reset.setMem (Memory.writeBytes [] 0xFFE [0x12#8, 0x34#8])
    s.peekOpcode 0xFFE = 0x1234#16 ∧ s.peekOpcode 0xFFF = 0#16 := by decide

/-! ### Witnesses: what meets the premises of each obligation, at the boundaries of its clauses -/

/-- The reset state with the opcode `w` placed at the pc `a`. -/
def placed (a w : Nat) : State := (atPc a).withFetchWord 16 w

theorem witness_EncodeOfDecodeIsTheWordUpToIgnoredY :
    decodeOp 0x8346#16 = some (.shr 0x3#4) ∧ opH 0x8346#16 = 0x8#4 ∧ opN 0x8346#16 = 0x6#4 ∧
    decodeOp 0x83FE#16 = some (.shl 0x3#4) ∧ decodeOp 0x8347#16 = some (.subnReg 0x3#4 0x4#4) := by decide

theorem witness_DispatchAgreesWithTheOpcodeTable :
    rowOf (.drw 0 0 0) ∈ opcodeTable ∧ (rowOf (.drw 0 0 0)).holds 0xD125#16 = true ∧ decodeOp 0x0000#16 = none := by decide

theorem witness_UnknownOpcodesByFamily :
    decodeOp 0x0FFF#16 = none ∧ decodeOp 0x500F#16 = none ∧ decodeOp 0x8008#16 = none ∧ decodeOp 0x9001#16 = none ∧
    decodeOp 0xE000#16 = none ∧ decodeOp 0xFFFF#16 = none ∧ decodeOp 0x1000#16 ≠ none := by decide

theorem witness_StepRunsTheDecodedInstruction :
    ((placed 0xFFE 0x6A3F).pc.toNat ≤ 0xFFE ∧
      decode [(placed 0xFFE 0x6A3F).mem.read 0xFFE, (placed 0xFFE 0x6A3F).mem.read 0xFFF] =
        .ok (.ldImm 0xA#4 0x3F#8, [])) ∧
    ∃ u, exec (.ldImm 0xA#4 0x3F#8)
      { placed 0xFFE 0x6A3F with pc := (placed 0xFFE 0x6A3F).pc + 2#16, diag := none, tone := false } = .next u :=
  ⟨by decide, _, rfl⟩

theorem witness_UnknownOpcodeIsAReportedNoOp :
    (atPc 0xFFE).pc.toNat ≤ 0xFFE ∧
    (0x0000#16).toNat = ((atPc 0xFFE).mem.read 0xFFE).toNat * 256 + ((atPc 0xFFE).mem.read 0xFFF).toNat ∧
    decodeOp 0x0000#16 = none := by decide

theorem witness_FetchOutOfBoundsIsAReportedNoOp :
    0xFFF ≤ (atPc 0xFFF).pc.toNat ∧ 0xFFF ≤ (atPc 0xFFFF).pc.toNat := by decide

theorem witness_EveryStepKeepsTheInvariant : State.Inv State.reset ∧ ∃ t, step State.reset = .next t :=
  ⟨⟨by decide, by decide, by decide⟩, _, rfl⟩

theorem witness_EveryReachableStateMeetsTheInvariant :
    0x200 ≤ State.reset.params.programStart.toNat ∧ Reachable State.reset ∧ Reachable (State.reset.loadProgram [0x12#8, 0x00#8]).2 ∧ Reachable (cycle State.reset) :=
  have h : Reachable State.reset := State.powerOn_default ▸ .powerOn Params.default
  ⟨by decide, h, .move (.loadProgram [0x12#8, 0x00#8]) h rfl, .move .cycle h rfl⟩

theorem witness_TimersCountDownEveryCycle :
    decodeOp (placed 0xFFE 0x6000).fetchWord = some (.ldImm 0#4 0#8) ∧ ¬ (atPc 0xFFF).pc.toNat ≤ 0xFFE := by decide

theorem witness_TimerWrittenInExecuteCountsInTheSameCycle :
    (placed 0xFFE 0xF015).pc.toNat ≤ 0xFFE ∧ decodeOp (placed 0xFFE 0xF015).fetchWord = some (.ldDt 0#4) ∧
    decodeOp (placed 0xFFE 0xFF18).fetchWord = some (.ldSt 0xF#4) ∧
    decodeOp (placed 0 0xF107).fetchWord = some (.ldFromDt 0x1#4) := by decide

theorem witness_RandomByteMattersOnlyToRnd :
    opH (placed 0xFFE 0x6000).fetchWord ≠ 0xC#4 ∧ ¬ (atPc 0xFFF).pc.toNat ≤ 0xFFE := by decide

theorem witness_DiagnosticRecordsTheFetchedInstruction :
    (∃ t, step (atPc 0xFFE) = .next t ∧ t.diag = some (.unknownOpcode 0xFFE#16 0x0000#16)) ∧
    ∃ t, step (atPc 0xFFF) = .next t ∧ t.diag = some (.fetchOob 0xFFF#16) :=
  ⟨⟨_, rfl, by decide⟩, _, rfl, by decide⟩

theorem witness_StoreIsSeenByTheNextFetch :
    (1 ≤ (0x1#4).toNat ∧ (withI 0xFFE).idx.toNat + (0x1#4).toNat ≤ 0xFFF) ∧
    (1 ≤ (0xF#4).toNat ∧ (withI 0xFF0).idx.toNat + (0xF#4).toNat ≤ 0xFFF) := by decide

theorem witness_StackWrittenOnlyByCallAndRet : Instr.cls ≠ .ret ∧ ∀ n, Instr.cls ≠ .call n := by
  constructor <;> simp

theorem witness_IndexWrittenOnlyByIndexInstructions :
    (∀ n, Instr.ldRegs 0xF#4 ≠ .ldIdx n) ∧ (∀ x, Instr.ldRegs 0xF#4 ≠ .addIdx x) ∧
    (∀ x, Instr.ldRegs 0xF#4 ≠ .ldFont x) := by refine ⟨?_, ?_, ?_⟩ <;> simp

theorem witness_MemoryWrittenOnlyByStores :
    (∀ x, Instr.ldRegs 0xF#4 ≠ .ldBcd x) ∧ ∀ x, Instr.ldRegs 0xF#4 ≠ .stRegs x := by constructor <;> simp

theorem witness_FramebufferAndTimersWrittenOnlyByTheirInstructions :
    Instr.ret ≠ .cls ∧ (∀ x y n, Instr.ret ≠ .drw x y n) ∧ (∀ x, Instr.ret ≠ .ldDt x) ∧ ∀ x, Instr.ret ≠ .ldSt x := by
  refine ⟨?_, ?_, ?_, ?_⟩ <;> simp

theorem witness_RegistersWrittenOnlyAsTheTableSays :
    writesReg .cls vf = false ∧ writesReg (.ldRegs 0xE#4) vf = false ∧ writesReg (.addReg 0#4 0#4) 0xE#4 = false := by decide

theorem witness_DrawXorsTheSpriteAndSetsCollision :
    ((0#4).toNat = 0) ∧ (withI 0xFFF).idx.toNat + (0x1#4).toNat - 1 ≤ 0xFFF ∧
    (withI 0xFF1).idx.toNat + (0xF#4).toNat - 1 ≤ 0xFFF := by decide

theorem witness_DrawingTwiceErases :
    (0x0#4 : RegIdx) ≠ vf ∧ (0xE#4 : RegIdx) ≠ vf ∧ (withI 0xFF1).idx.toNat + (0xF#4).toNat - 1 ≤ 0xFFF := by decide

theorem witness_CallPushesTheReturnAddress :
    State.reset.sp.val < 16 ∧ ({ State.reset with sp := 15 } : State).sp.val < 16 := by decide

theorem witness_ReturnPopsTheReturnAddress :
    ({ State.reset with sp := 1 } : State).sp.val = (0 : Fin 16).val + 1 ∧
    ({ State.reset with sp := 16 } : State).sp.val = (15 : Fin 16).val + 1 := by decide

theorem witness_ReturnGoesBackAfterTheCall :
    ({ State.reset with sp := 15 } : State).sp.val < 16 ∧
    ∃ t, exec (.call 0x300#12) { State.reset with sp := 15 } = .next t ∧
      ∃ u : State, u.stack = t.stack ∧ u.sp = t.sp ∧ u.pc = 0xFFF#16 :=
  ⟨by decide, _, rfl, State.setPc _ 0xFFF#16, rfl, rfl, rfl⟩

theorem witness_StackFailuresAreReportedAndWriteNothing :
    State.reset.sp.val = 0 ∧ ({ State.reset with sp := 16, params := onHold } : State).sp.val = 16 := by decide

theorem witness_SkipsOnTwoRegisters :
    decodeOp 0x5120#16 = some (.seReg 0x1#4 0x2#4) ∧ decodeOp 0x5121#16 = none ∧ decodeOp 0x912F#16 = none := by decide

theorem witness_SkipsOnAKey :
    ((with1 5#4 15#8).setKey 15 true).keys[((with1 5#4 15#8).reg 5#4).toNat]? = some true ∧
    16 ≤ ((with1 5#4 16#8).reg 5#4).toNat := by decide

theorem witness_AddRegistersSetsCarry :
    (0x1#4 : RegIdx) ≠ vf ∧ ((with2 1#4 0xFF#8 2#4 1#8).reg 1#4).toNat + ((with2 1#4 0xFF#8 2#4 1#8).reg 2#4).toNat > 255 ∧
    ((with2 1#4 0xFF#8 2#4 0#8).reg 1#4).toNat + ((with2 1#4 0xFF#8 2#4 0#8).reg 2#4).toNat = 255 := by decide

theorem witness_SubtractRegistersSetsNoBorrow :
    (0xE#4 : RegIdx) ≠ vf ∧
    ((with2 0xE#4 4#8 2#4 3#8).reg 0xE#4).toNat > ((with2 0xE#4 4#8 2#4 3#8).reg 2#4).toNat ∧
    ((with2 0xE#4 3#8 2#4 3#8).reg 0xE#4).toNat = ((with2 0xE#4 3#8 2#4 3#8).reg 2#4).toNat ∧
    ((with2 0xE#4 3#8 2#4 4#8).reg 2#4).toNat > ((with2 0xE#4 3#8 2#4 4#8).reg 0xE#4).toNat := by decide

theorem witness_TimerTransfers :
    (0x0#4 : RegIdx) ≠ 0xF#4 ∧ ((with1 0#4 1#8).reg 0#4).toNat = 1 ∧ ((with1 0#4 0#8).reg 0#4).toNat = 0 := by decide

theorem witness_RandomByteUnderAMask :
    (0x0F#8).getLsbD 3 = true ∧ (0x0F#8).getLsbD 4 = false ∧ (0x0#4 : RegIdx) ≠ 0xF#4 := by decide

theorem witness_HostTimerWriteAndGetters :
    (with1 0xF#4 7#8).getRegister 15 = 7#8 ∧ (with1 0xF#4 7#8).getRegister 16 = 0#8 ∧
    (State.reset.setKey 15 true).isKeyDown 15 = true ∧ (State.reset.setKey 15 true).isKeyDown 16 = false := by decide

theorem witness_HostViewsShowTheState :
    (State.reset.mem.read 0x09F = 0x80#8 ∧ 0x09F < 4096) ∧
    (FrameBuf.flip FrameBuf.clear 63 31).lit 63 31 = true ∧ 63 < 64 ∧ 31 < 32 := by decide

theorem witness_ShiftsByOne :
    (0xE#4 : RegIdx) ≠ vf ∧ 128 ≤ ((with1 vf 0x80#8).reg vf).toNat ∧ ¬ 128 ≤ ((with1 vf 0x7F#8).reg vf).toNat := by decide

theorem witness_DecimalDigitsAreStored : (withI 0xFFD).idx.toNat + 2 ≤ 0xFFF := by decide

theorem witness_RegistersAreStored :
    (withI 0xFFF).idx.toNat + (0x0#4).toNat ≤ 0xFFF ∧ (withI 0xFF0).idx.toNat + (0xF#4).toNat ≤ 0xFFF := by decide

theorem witness_RegistersAreLoaded :
    (withI 0xFFF).idx.toNat + (0x0#4).toNat ≤ 0xFFF ∧ (withI 0xFF0).idx.toNat + (0xF#4).toNat ≤ 0xFFF := by decide

theorem witness_LoadGivesBackWhatWasStored :
    (withI 0xFF0).idx.toNat + (0xF#4).toNat ≤ 0xFFF ∧
    ∃ t, exec (.stRegs 0xF#4) (withI 0xFF0) = .next t ∧ ∃ u : State, u.mem = t.mem ∧ u.idx = (withI 0xFF0).idx :=
  ⟨by decide, _, rfl, _, rfl, by decide⟩

theorem witness_DataOutOfRangeChangesNothing :
    ((0x1#4 : Nibble).toNat ≠ 0 ∧ (withI 0x1000).idx.toNat + (0x1#4).toNat - 1 > 0xFFF) ∧
    ((0xF#4 : Nibble).toNat ≠ 0 ∧ (withI 0xFF2).idx.toNat + (0xF#4).toNat - 1 > 0xFFF) ∧
    (withI 0xFFE).idx.toNat + 2 > 0xFFF ∧ (withI 0x1000).idx.toNat + (0x0#4).toNat > 0xFFF ∧
    (withI 0xFF1).idx.toNat + (0xF#4).toNat > 0xFFF := by decide

theorem witness_KeyWaitTakesTheLowestKeyOrRepeats :
    ((State.reset.setKey 15 true).keys[(15 : Fin 16)] = true ∧
      ∀ j : Fin 16, j < 15 → (State.reset.setKey 15 true).keys[j] = false) ∧
    ∀ k : Fin 16, State.reset.keys[k] = false := by decide

theorem witness_KeyWaitRefetchesItself :
    (placed 0xFFE 0xF20A).pc.toNat ≤ 0xFFE ∧ decodeOp (placed 0xFFE 0xF20A).fetchWord = some (.ldKey 0x2#4) ∧
    ∀ k : Fin 16, (placed 0xFFE 0xF20A).keys[k] = false := by decide

theorem witness_ResetLeavesTheResetValues :
    progOk State.reset.params State.reset.prog = true ∧ progOk Params.default (List.replicate 3584 0xFF#8) = true ∧
    progOk other (List.replicate 3328 0xFF#8) = true ∧ 0x200 ≤ other.programStart.toNat ∧
    low.fontBase.val + 0 < low.programStart.toNat ∧ low.programStart.toNat + 78 ≤ low.fontBase.val + 79 ∧
    ¬ (other.fontBase.val ≤ 0x1AF ∧ 0x1AF < other.fontBase.val + 80) ∧
    ¬ (other.programStart.toNat ≤ 0x2FF ∧ 0x2FF < other.programStart.toNat + 3328) :=
  ⟨by decide, decide_eq_true (by rw [List.length_replicate]; decide),
    decide_eq_true (by rw [List.length_replicate]; decide), by decide, by decide,
    by decide, by decide⟩

theorem witness_ResetIsIdempotentAndDependsOnlyOnP :
    (atPc 0xFFF).prog = (with1 vf 7#8).prog ∧ (atPc 0xFFF).params.fontBase = (with1 vf 7#8).params.fontBase ∧
    (atPc 0xFFF).params.programStart = (with1 vf 7#8).params.programStart ∧
    (atPc 0xFFF).params.fontTable = (with1 vf 7#8).params.fontTable := by decide

theorem witness_LoadProgramSucceedsExactlyWhenItFits :
    (1 ≤ [0x00#8].length ∧ State.reset.params.programStart.toNat + [0x00#8].length ≤ 4096) ∧
    State.reset.params.programStart.toNat + (List.replicate 3584 0xFF#8).length = 4096 ∧
    ([] : List Byte).length = 0 ∧ 4096 < State.reset.params.programStart.toNat + (List.replicate 3585 0xFF#8).length ∧
    State.reset.params.programStart = 0x200#12 ∧
    (State.powerOn other).params.programStart.toNat + (List.replicate 3328 0xFF#8).length = 4096 := by
  rw [List.length_replicate, List.length_replicate, List.length_replicate]; decide

theorem witness_SetKeyWritesOneKey :
    State.reset.setKey 16 true = State.reset ∧ (State.reset.setKey 15 true).keys[(15 : Fin 16)] = true := by decide

theorem witness_PeekOpcodeReadsBigEndianOrZero : 0xFFE + 1 ≤ 0xFFF ∧ 0xFFF + 1 > 0xFFF := by decide

end Sys2Proof.Tests
end

/-! ### What execute may write (10_state R32 to R42, 20_memory R71) -/

section
namespace Sys2Proof.Machine

/-- The instructions that write the stack and SP (10_state R36, R37). -/
def WritesStack (i : Instr) : Prop := i = .ret ∨ ∃ n, i = .call n

/-- The instructions that write `I` (10_state R34). -/
def WritesIdx (i : Instr) : Prop := (∃ n, i = .ldIdx n) ∨ (∃ x, i = .addIdx x) ∨ ∃ x, i = .ldFont x

/-- The instructions that write memory (20_memory R71). -/
def WritesMem (i : Instr) : Prop := (∃ x, i = .ldBcd x) ∨ ∃ x, i = .stRegs x

/-- The instructions that write the framebuffer (10_state R39). -/
def WritesFb (i : Instr) : Prop := i = .cls ∨ ∃ x y n, i = .drw x y n

/-- What no instruction does: from `s` to `t` the items that only a host or the end of the cycle writes are kept, and
memory keeps its canonical form. The fields are filled by computation where an update leaves them alone. -/
structure Keeps (s t : State) : Prop where
  keys : t.keys = s.keys := by rfl
  prog : t.prog = s.prog := by rfl
  params : t.params = s.params := by rfl
  tone : t.tone = s.tone := by rfl
  trace : t.trace = s.trace := by rfl
  cycleNo : t.cycleNo = s.cycleNo := by rfl
  mem_wf : Memory.wf s.mem = true → Memory.wf t.mem = true := by exact id

/-- From `s` to `t` only what instruction `i` may write has been written (the pc and the diagnostic are any
instruction's). -/
structure ExecFrame (i : Instr) (s t : State) : Prop extends Keeps s t where
  reg : ∀ r, writesReg i r = false → t.reg r = s.reg r := by intros; rfl
  idx : ¬ WritesIdx i → t.idx = s.idx := by intros; rfl
  stack : ¬ WritesStack i → t.stack = s.stack := by intros; rfl
  sp : ¬ WritesStack i → t.sp = s.sp := by intros; rfl
  mem : ¬ WritesMem i → t.mem = s.mem := by intros; rfl
  fb : ¬ WritesFb i → t.fb = s.fb := by intros; rfl
  dt : (∀ x, i ≠ .ldDt x) → t.dt = s.dt := by intros; rfl
  st : (∀ x, i ≠ .ldSt x) → t.st = s.st := by intros; rfl

namespace ExecFrame

variable {i : Instr} {s t u : State}

/-! ### The frame of each named operation -/

theorem trans (h : ExecFrame i s t) (h' : ExecFrame i t u) : ExecFrame i s u where
  keys := h'.keys.trans h.keys
  prog := h'.prog.trans h.prog
  params := h'.params.trans h.params
  tone := h'.tone.trans h.tone
  trace := h'.trace.trans h.trace
  cycleNo := h'.cycleNo.trans h.cycleNo
  mem_wf := h'.mem_wf ∘ h.mem_wf
  reg r hr := (h'.reg r hr).trans (h.reg r hr)
  idx hn := (h'.idx hn).trans (h.idx hn)
  stack hn := (h'.stack hn).trans (h.stack hn)
  sp hn := (h'.sp hn).trans (h.sp hn)
  mem hn := (h'.mem hn).trans (h.mem hn)
  fb hn := (h'.fb hn).trans (h.fb hn)
  dt hn := (h'.dt hn).trans (h.dt hn)
  st hn := (h'.st hn).trans (h.st hn)

theorem setPc (w : Word) : ExecFrame i s (s.setPc w) := {}

theorem report (d : Diag) : ExecFrame i s (s.report d) := {}

theorem raise (d : Diag) : ExecFrame i s (s.raise d) := {}

theorem skipIf (c : Bool) : ExecFrame i s (s.skipIf c) := by
  rw [State.skipIf_eq]; exact .setPc _

theorem noteKey (j : Instr) (k : Byte) : ExecFrame i s (s.noteKey j k) := by
  rw [State.noteKey_eq]; exact {}

theorem setReg {x : RegIdx} (hx : writesReg i x = true) (b : Byte) : ExecFrame i s (s.setReg x b) where
  reg r hr := by
    have hne : r ≠ x := by rintro rfl; simp [hx] at hr
    rw [State.reg_setReg, if_neg hne]

theorem setFlag (hf : writesReg i vf = true) (b : Byte) : ExecFrame i s (s.setFlag b) := .setReg hf b

theorem setRegs {bs : List Byte} (hbs : ∀ r : RegIdx, writesReg i r = false → bs.length ≤ r.toNat) :
    ExecFrame i s (s.setRegs bs) where
  reg r hr := by rw [State.reg_setRegs, dif_neg (Nat.not_lt.2 (hbs r hr))]

theorem setIdx (hi : WritesIdx i) (w : Word) : ExecFrame i s (s.setIdx w) where
  idx hn := absurd hi hn

theorem setDt {x : RegIdx} (b : Byte) : ExecFrame (.ldDt x) s (s.setDt b) where
  dt hn := absurd rfl (hn x)

theorem setSt {x : RegIdx} (b : Byte) : ExecFrame (.ldSt x) s (s.setSt b) where
  st hn := absurd rfl (hn x)

theorem setFb (hi : WritesFb i) (f : FrameBuf) : ExecFrame i s (s.setFb f) where
  fb hn := absurd hi hn

theorem writeBytes (hi : WritesMem i) (a : Nat) (bs : List Byte) :
    ExecFrame i s (s.setMem (s.mem.writeBytes a bs)) where
  mem hn := absurd hi hn
  mem_wf := Memory.writeBytes_wf

theorem push (hi : WritesStack i) (h : s.push = some t) : ExecFrame i s t := by
  unfold State.push at h
  split at h <;> cases h
  exact { stack := absurd hi, sp := absurd hi }

theorem pop (hi : WritesStack i) (h : s.pop = some t) : ExecFrame i s t := by
  unfold State.pop at h
  split at h <;> cases h
  exact { sp := absurd hi }

/-- A range check either lets the effect through or raises. -/
theorem checkRange (h : ExecFrame i s t) (j : Instr) (n : Nat) : ExecFrame i s (s.checkRange j n t) := by
  cases hr : rangeOk s.idx n
  · rw [State.checkRange_oob hr]; exact .raise _
  · rwa [State.checkRange_ok hr]

theorem draw (x y : RegIdx) (n : Nibble) : ExecFrame (.drw x y n) s (s.draw x y n) :=
  .trans (.setFb (.inr ⟨x, y, n, rfl⟩) _) (.setFlag rfl _)

end ExecFrame

/-! ### The frame of every instruction -/

theorem execRet_frame (s : State) : ∃ t, execRet s = .next t ∧ ExecFrame .ret s t := by
  unfold execRet
  split
  · next h => exact ⟨_, rfl, .pop (.inl rfl) h⟩
  · exact ⟨_, rfl, .raise _⟩

theorem execCall_frame (nnn : Addr) (s : State) : ∃ t, execCall nnn s = .next t ∧ ExecFrame (.call nnn) s t := by
  unfold execCall
  split
  · next h => exact ⟨_, rfl, .trans (.push (.inr ⟨nnn, rfl⟩) h) (.setPc _)⟩
  · exact ⟨_, rfl, .raise _⟩

theorem execLdKey_frame (x : RegIdx) (s : State) : ∃ t, execLdKey x s = .next t ∧ ExecFrame (.ldKey x) s t := by
  unfold execLdKey
  split
  · exact ⟨_, rfl, .setReg (by simp [writesReg]) _⟩
  · exact ⟨_, rfl, .setPc _⟩

theorem execLdRegs_frame (x : RegIdx) (s : State) : ∃ t, execLdRegs x s = .next t ∧ ExecFrame (.ldRegs x) s t := by
  refine ⟨_, rfl, .checkRange (.setRegs fun r hr => ?_) _ _⟩
  have : x.toNat < r.toNat := by simpa [writesReg] using hr
  simpa [regCount] using this

/-- Execute answers a next state for every instruction, and writes only what that instruction may write. -/
theorem exec_frame (i : Instr) (s : State) : ∃ t, exec i s = .next t ∧ ExecFrame i s t := by
  cases i with
  | cls => exact ⟨_, rfl, .setFb (.inl rfl) _⟩
  | ret => exact execRet_frame s
  | call nnn => exact execCall_frame nnn s
  | jp | jpV0 => exact ⟨_, rfl, .setPc _⟩
  | seImm | sneImm | seReg | sneReg => exact ⟨_, rfl, .skipIf _⟩
  | skp | sknp => exact ⟨_, rfl, .trans (.noteKey _ _) (.skipIf _)⟩
  | ldImm | addImm | ldReg | orReg | andReg | xorReg | rnd | ldFromDt =>
    exact ⟨_, rfl, .setReg (by simp [writesReg]) _⟩
  | addReg | subReg | subnReg =>
    exact ⟨_, rfl, .trans (.setReg (by simp [writesReg]) _) (.setFlag (by simp [writesReg]) _)⟩
  | shr | shl =>
    exact ⟨_, rfl, .trans (.setFlag (by simp [writesReg]) _) (.setReg (by simp [writesReg]) _)⟩
  | drw x y n => exact ⟨_, rfl, .checkRange (.draw x y n) _ _⟩
  | ldKey x => exact execLdKey_frame x s
  | ldDt => exact ⟨_, rfl, .setDt _⟩
  | ldSt => exact ⟨_, rfl, .setSt _⟩
  | ldIdx nnn => exact ⟨_, rfl, .setIdx (.inl ⟨nnn, rfl⟩) _⟩
  | addIdx x => exact ⟨_, rfl, .setIdx (.inr (.inl ⟨x, rfl⟩)) _⟩
  | ldFont x => exact ⟨_, rfl, .setIdx (.inr (.inr ⟨x, rfl⟩)) _⟩
  | ldBcd x => exact ⟨_, rfl, .checkRange (.writeBytes (.inl ⟨x, rfl⟩) _ _) _ _⟩
  | stRegs x => exact ⟨_, rfl, .checkRange (.writeBytes (.inr ⟨x, rfl⟩) _ _) _ _⟩
  | ldRegs x => exact execLdRegs_frame x s

/-! ### Who writes what -/

/-- Settles O18, from the frame of the instruction. -/
theorem stackWrittenOnlyByCallAndRet : Obligations.StackWrittenOnlyByCallAndRet := by
  intro i s hret hcall
  obtain ⟨t, ht, frame⟩ := exec_frame i s
  have hn : ¬ WritesStack i := by
    rintro (h | ⟨n, h⟩)
    · exact hret h
    · exact hcall n h
  exact ⟨t, ht, frame.stack hn, frame.sp hn⟩

/-- Settles O19, from the frame of the instruction. -/
theorem indexWrittenOnlyByIndexInstructions : Obligations.IndexWrittenOnlyByIndexInstructions := by
  intro i s hld hadd hfont
  obtain ⟨t, ht, frame⟩ := exec_frame i s
  refine ⟨t, ht, frame.idx ?_⟩
  rintro (⟨n, h⟩ | ⟨x, h⟩ | ⟨x, h⟩)
  · exact hld n h
  · exact hadd x h
  · exact hfont x h

/-- Settles O21, from the frame of the instruction. -/
theorem framebufferAndTimersWrittenOnlyByTheirInstructions :
    Obligations.FramebufferAndTimersWrittenOnlyByTheirInstructions := by
  intro i s
  obtain ⟨t, ht, frame⟩ := exec_frame i s
  refine ⟨t, ht, fun hcls hdrw => frame.fb ?_, frame.dt, frame.st⟩
  rintro (h | ⟨x, y, n, h⟩)
  · exact hcls h
  · exact hdrw x y n h

/-- Settles O22, from the frame of the instruction. -/
theorem registersWrittenOnlyAsTheTableSays : Obligations.RegistersWrittenOnlyAsTheTableSays := by
  intro i s r hr
  obtain ⟨t, ht, frame⟩ := exec_frame i s
  exact ⟨t, ht, frame.reg r hr⟩

end Sys2Proof.Machine
end

/-! ### The invariant (10_state R65) -/

section
namespace Sys2Proof.Machine

/-- Every step is the start of a cycle, something that keeps what no instruction writes, and the end of the cycle. -/
theorem step_keeps (s : State) : ∃ u, step s = .next u.endCycle ∧ Keeps s.beginCycle u := by
  unfold step
  split
  · split
    · next i _ =>
      obtain ⟨u, hu, frame⟩ := exec_frame i s.beginCycle
      exact ⟨u, by rw [hu]; rfl, frame.toKeeps⟩
    · exact ⟨_, rfl, {}⟩
  · exact ⟨_, rfl, {}⟩

theorem progOk_iff (p : Params) (bs : List Byte) :
    progOk p bs = true ↔ p.programStart.toNat + bs.length ≤ 4096 := by
  rw [progOk, decide_eq_true_iff]

theorem State.Inv.keeps {s t : State} (hs : s.Inv) (h : Keeps s t) : t.Inv := by
  obtain ⟨hmem, hprog, htrace⟩ := hs
  exact ⟨h.mem_wf hmem, by rwa [h.params, h.prog], by rwa [h.trace, h.cycleNo]⟩

/-- A cycle adds one output record and counts one. -/
theorem State.Inv.endCycle {s : State} (hs : s.Inv) : s.endCycle.Inv := by
  obtain ⟨hmem, hprog, htrace⟩ := hs
  exact ⟨hmem, hprog, congrArg (· + 1) htrace⟩

theorem State.Inv.step {s t : State} (hs : s.Inv) (h : step s = .next t) : t.Inv := by
  obtain ⟨u, hu, keeps⟩ := step_keeps s
  cases hu.symm.trans h
  have hb : s.beginCycle.Inv := hs
  exact (hb.keeps keeps).endCycle

/-- Settles O10: what a cycle's execute may do keeps the invariant, and so does the end of the cycle. -/
theorem everyStepKeepsTheInvariant : Obligations.EveryStepKeepsTheInvariant :=
  fun _ _ hs h => hs.step h

/-! ### The host's operations -/

theorem State.Inv.resetWith {s : State} (hs : s.Inv) (bs : List Byte) : (s.resetWith bs).Inv := by
  obtain ⟨-, hprog, htrace⟩ := hs
  exact ⟨resetMemory_wf s.params bs, hprog, htrace⟩

theorem State.powerOn_inv (p : Params) : (State.powerOn p).Inv := by
  refine State.Inv.resetWith ⟨rfl, (progOk_iff _ _).2 ?_, rfl⟩ []
  exact p.programStart.isLt.le

/-- Settles O11: memory after reset is canonical, `P` is empty and no cycle has run. -/
theorem resetStateMeetsTheInvariant : Obligations.ResetStateMeetsTheInvariant :=
  ⟨State.powerOn_default ▸ State.powerOn_inv Params.default, State.powerOn_inv⟩

theorem State.Inv.loadProgram {s : State} (hs : s.Inv) (bs : List Byte) : (s.loadProgram bs).2.Inv := by
  unfold State.loadProgram
  split
  · next hfits =>
    obtain ⟨hmem, -, htrace⟩ := hs
    have hset : (s.setProg bs).Inv := ⟨hmem, (progOk_iff _ _).2 ((loadFits_iff _ _).1 hfits).2, htrace⟩
    exact hset.resetWith bs
  · exact hs

theorem State.Inv.move {s t : State} (hs : s.Inv) (m : HostMove) (h : s.move m = .next t) : t.Inv := by
  cases m with
  | cycle => exact hs.step h
  | loadProgram bs => cases h; exact hs.loadProgram bs
  | reset => cases h; exact hs.resetWith s.prog
  | setKey code pressed => cases h; exact hs
  | writeTimers dt st => cases h; exact hs

theorem Reachable.inv {s : State} (h : Reachable s) : s.Inv := by
  induction h with
  | powerOn p => exact State.powerOn_inv p
  | move m _ ht ih => exact ih.move m ht

/-- Settles O12: power-on meets the invariant and every operation of the host keeps it. -/
theorem everyReachableStateMeetsTheInvariant : Obligations.EveryReachableStateMeetsTheInvariant := by
  intro s hs
  refine ⟨hs.inv, fun hstart => ?_⟩
  obtain ⟨-, hprog, -⟩ := hs.inv
  have := (progOk_iff _ _).1 hprog
  omega

end Sys2Proof.Machine
end

/-! ### Reset (10_state R49, 70_reset R270 to R275) -/

section
namespace Sys2Proof.Machine

/-- Of two resets only the second shows: the first keeps everything a reset reads. -/
theorem State.resetWith_resetWith (s : State) (bs cs : List Byte) :
    (s.resetWith bs).resetWith cs = s.resetWith cs := rfl

theorem State.hostReset_powerOn (p : Params) : (State.powerOn p).hostReset = State.powerOn p :=
  State.resetWith_resetWith _ [] []

section
variable {s : State} (hprog : progOk s.params s.prog = true)
include hprog

/-- A byte after `reset()`: of `P`, else of the font, else 0. -/
theorem State.read_hostReset (a : Nat) :
    s.hostReset.mem.read a =
      if hp : s.params.programStart.toNat ≤ a ∧ a < s.params.programStart.toNat + s.prog.length then
        s.prog[a - s.params.programStart.toNat]'(by omega)
      else if hf : s.params.fontBase.val ≤ a ∧ a < s.params.fontBase.val + 80 then
        s.params.fontTable[a - s.params.fontBase.val]'(by omega)
      else 0#8 :=
  read_resetMemory s.params s.prog a ((progOk_iff _ _).1 hprog)

theorem State.read_hostReset_prog {j : Nat} (hj : j < s.prog.length) :
    s.hostReset.mem.read (s.params.programStart.toNat + j) = s.prog[j] := by
  rw [State.read_hostReset hprog, dif_pos (by omega)]
  simp

/-- A font byte the program does not cover; a program from 0x200 on covers none, whatever FONT_BASE is. -/
theorem State.read_hostReset_font {j : Nat} (hj : j < 80)
    (hfree : 0x200 ≤ s.params.programStart.toNat ∨ s.params.fontBase.val + j < s.params.programStart.toNat ∨
      s.params.programStart.toNat + s.prog.length ≤ s.params.fontBase.val + j) :
    s.hostReset.mem.read (s.params.fontBase.val + j) = s.params.fontTable[j] := by
  have hbase := s.params.fontBase.isLt
  rw [State.read_hostReset hprog, dif_neg (by omega), dif_pos (by omega)]
  simp

end

/-- Settles O51, item by item of R49; memory by `read_resetMemory`. -/
theorem resetLeavesTheResetValues : Obligations.ResetLeavesTheResetValues := by
  refine ⟨fun p => ⟨rfl, rfl, State.hostReset_powerOn p⟩, State.powerOn_default, fun s hprog => ?_⟩
  refine ⟨?reg, rfl, ?pc, ?stack, rfl, rfl, rfl, ?keys, ?fb, fun j => State.read_hostReset_prog hprog,
    fun j => State.read_hostReset_font hprog, ?zero, rfl, rfl⟩
  case reg => intro r; simp [State.hostReset, State.reg]
  case pc =>
    have := s.params.programStart.isLt
    simp [State.hostReset, zextAddr]; omega
  case stack => intro k; simp [State.hostReset]
  case keys => intro k; simp [State.hostReset]
  case fb => intro px py _ _; exact FrameBuf.lit_clear px py
  case zero =>
    intro a _ hfont hp
    rw [State.read_hostReset hprog, dif_neg hp, dif_neg hfont]

/-! ### The host's views and writes (10_state R53 to R62) -/

theorem State.getMemory_getElem? (s : State) {a : Nat} (ha : a < 4096) :
    s.getMemory[a]? = some (s.mem.read a) := by
  simp [State.getMemory, ha]

theorem State.getFramebuffer_getElem? (s : State) {x y : Nat} (hx : x < 64) (hy : y < 32) :
    s.getFramebuffer[y * 64 + x]? = some (s.fb.lit x y) := by
  have hk : y * 64 + x < Config.fbWidth * Config.fbHeight := by simp only [Config.fbWidth, Config.fbHeight]; omega
  have hcol : (y * 64 + x) % Config.fbWidth = x := by simp only [Config.fbWidth]; omega
  have hrow : (y * 64 + x) / Config.fbWidth = y := by simp only [Config.fbWidth]; omega
  rw [State.getFramebuffer, List.getElem?_map, List.getElem?_range hk, Option.map_some, hcol, hrow]

/-- Settles O57: each view lists its item by index. -/
theorem hostViewsShowTheState : Obligations.HostViewsShowTheState := by
  intro s
  refine ⟨s.mem.readBytes_length 0 4096, fun a => s.getMemory_getElem?, ?_, fun x y => s.getFramebuffer_getElem?,
    s.stack.length_toList, fun k => by simp [State.getStack]⟩
  simp [State.getFramebuffer, Config.fbWidth, Config.fbHeight]

/-- Settles O54: the keypad's own bound is the check on the code. -/
theorem setKeyWritesOneKey : Obligations.SetKeyWritesOneKey := by
  intro s code p
  refine ⟨fun h => ?_, fun h => ⟨fun k => ?_, rfl⟩⟩
  · have hkeys : s.keys.setIfInBounds code p = s.keys := Vector.setIfInBounds_eq_of_size_le h
    rw [State.setKey, hkeys]
  · simp [Vector.getElem_setIfInBounds, eq_comm]

/-- Settles O55: a getter reads its vector, and its default where no element stands. -/
theorem hostTimerWriteAndGetters : Obligations.HostTimerWriteAndGetters := by
  intro s
  refine ⟨fun _ _ => rfl, fun r => ?_, fun k hk => ?_, fun k => ?_, fun k hk => s.key_of_ge hk⟩
  · rw [State.getRegister, Vector.getElem?_eq_getElem r.isLt]; rfl
  · simp [State.getRegister, hk]
  · simp [State.isKeyDown, State.key]

/-- Settles O56, by `opcodeOf_toNat` where the second byte exists. -/
theorem peekOpcodeReadsBigEndianOrZero : Obligations.PeekOpcodeReadsBigEndianOrZero := by
  intro s a
  unfold State.peekOpcode
  refine ⟨fun h => ?_, fun h => ?_⟩
  · rw [if_pos h, opcodeOf_toNat]
  · rw [if_neg (by omega)]

end Sys2Proof.Machine
end

/-! ### Memory and the fetch (20_memory R71, R78; 40_cycle R142) -/

section
namespace Sys2Proof.Machine

/-- Settles O20, from the frame of the instruction: it keeps the whole memory, hence every byte. -/
theorem memoryWrittenOnlyByStores : Obligations.MemoryWrittenOnlyByStores := by
  intro i s hbcd hst
  obtain ⟨t, ht, frame⟩ := exec_frame i s
  have hn : ¬ WritesMem i := by
    rintro (⟨x, h⟩ | ⟨x, h⟩)
    · exact hbcd x h
    · exact hst x h
  exact ⟨t, ht, fun a => congrArg (·.read a) (frame.mem hn)⟩

/-! ### The fetched instruction's address and the tone request -/

/-- The start of a cycle steps the pc past the instruction, and `instrAddr` goes back to it, modulo 2^16. -/
@[simp] theorem State.instrAddr_beginCycle (s : State) : s.beginCycle.instrAddr = s.pc :=
  BitVec.add_sub_cancel s.pc 2#16

/-- A timer goes to 0 in a cycle exactly when it was 1 (40_cycle R148). -/
theorem countDown_reaches_zero_iff (b : Byte) : b ≠ 0#8 ∧ countDown b = 0#8 ↔ b = 1#8 := by
  simp only [← BitVec.toNat_inj, ne_eq, countDown_toNat, BitVec.toNat_ofNat]
  omega

/-- The tone is requested exactly at the end of a cycle that finds ST at 1. -/
theorem State.endCycle_tone_eq (s : State) : s.endCycle.tone = decide (s.st = 1#8) := by
  rw [State.endCycle_tone, Bool.eq_iff_iff]
  simpa using countDown_reaches_zero_iff s.st

/-! ### The fetch out of bounds -/

theorem step_of_fetch_oob {s : State} (h : 0xFFF ≤ s.pc.toNat) :
    step s = .next s.beginCycle.oobFetch.endCycle := by
  have hfetch : ¬ s.fetchOk = true := by simp only [State.fetchOk, decide_eq_true_iff]; omega
  rw [step, if_neg hfetch]

/-- Settles O8: the step is `oobFetch` between the start and the end of the cycle; the frame is by computation. -/
theorem fetchOutOfBoundsIsAReportedNoOp : Obligations.FetchOutOfBoundsIsAReportedNoOp := by
  intro s hpc
  refine ⟨_, step_of_fetch_oob hpc, ?pc, ?diag, countDown_toNat s.dt, countDown_toNat s.st,
    State.endCycle_tone_eq _, rfl⟩
  case pc => exact BitVec.toNat_add s.pc 2#16
  case diag => simp [State.oobFetch]

end Sys2Proof.Machine
end

/-! ### Encoding (30_encoding R100 to R113) -/

section
namespace Sys2Proof

/-! ### The fields of a literal opcode -/

@[simp] theorem opH_ofNat (n : Nat) : opH (BitVec.ofNat 16 n) = BitVec.ofNat 4 (n / 4096) := by
  apply BitVec.eq_of_toNat_eq; rw [opH_toNat, BitVec.toNat_ofNat, BitVec.toNat_ofNat]; omega
@[simp] theorem opN_ofNat (n : Nat) : opN (BitVec.ofNat 16 n) = BitVec.ofNat 4 n := by
  apply BitVec.eq_of_toNat_eq; rw [opN_toNat, BitVec.toNat_ofNat, BitVec.toNat_ofNat]; omega
@[simp] theorem opNN_ofNat (n : Nat) : opNN (BitVec.ofNat 16 n) = BitVec.ofNat 8 n := by
  apply BitVec.eq_of_toNat_eq; rw [opNN_toNat, BitVec.toNat_ofNat, BitVec.toNat_ofNat]; omega

/-! ### A word from its fields (30_encoding R102) -/

theorem eq_formatA {w : Word} {h : BitVec 4} (hH : opH w = h) : w = h ++ opNNN w := by
  subst hH
  apply BitVec.eq_of_toNat_eq; rw [toNat_formatA, opH_toNat, opNNN_toNat]; omega

theorem eq_formatXB {w : Word} {h : BitVec 4} {b : Byte} (hH : opH w = h) (hB : opNN w = b) :
    w = h ++ opX w ++ b := by
  subst hH hB
  apply BitVec.eq_of_toNat_eq; rw [toNat_formatXB, opH_toNat, opX_toNat, opNN_toNat]; omega

theorem eq_formatXY {w : Word} {h f : BitVec 4} (hH : opH w = h) (hN : opN w = f) :
    w = h ++ opX w ++ opY w ++ f := by
  subst hH hN
  apply BitVec.eq_of_toNat_eq; rw [toNat_formatXY, opH_toNat, opX_toNat, opY_toNat, opN_toNat]; omega

/-! ### The opcodes of an instruction (30_encoding R104, R111) -/

/-- `w` is an opcode of `i`: its encoding, or, for the shifts of 8XY6 and 8XYE, its encoding with any `Y`. -/
def IsOpcodeOf : Instr → Word → Prop
  | .shr x, w => ∃ y : RegIdx, w = 0x8#4 ++ x ++ y ++ 0x6#4
  | .shl x, w => ∃ y : RegIdx, w = 0x8#4 ++ x ++ y ++ 0xE#4
  | i, w => w = encodeWord i

theorem isOpcodeOf_encodeWord (i : Instr) : IsOpcodeOf i (encodeWord i) := by
  cases i with
  | shr | shl => exact ⟨0x0#4, rfl⟩
  | _ => rfl

theorem decodeOp_of_isOpcodeOf {i : Instr} {w : Word} (h : IsOpcodeOf i w) : decodeOp w = some i := by
  cases i with
  | shr x | shl x =>
    obtain ⟨y, rfl⟩ := h
    simp [decodeOp, decodeFamily8]
  | cls | ret => obtain rfl := h; rfl
  | _ =>
    obtain rfl := h
    simp [encodeWord, decodeOp, decodeFamily8, decodeFamilyE, decodeFamilyF]

theorem isOpcodeOf_of_decodeFamily0 {w : Word} {i : Instr} (h : decodeFamily0 w = some i) : IsOpcodeOf i w := by
  unfold decodeFamily0 at h
  split at h
  · next hw => cases h; exact hw
  · split at h
    · next hw => cases h; exact hw
    · cases h

theorem isOpcodeOf_of_decodeFamily8 {w : Word} {i : Instr} (hH : opH w = 0x8#4) (h : decodeFamily8 w = some i) :
    IsOpcodeOf i w := by
  unfold decodeFamily8 at h
  split at h
  case h_7 hN | h_9 hN => cases h; exact ⟨opY w, eq_formatXY hH hN⟩
  case h_10 => cases h
  all_goals next hN => cases h; exact eq_formatXY hH hN

theorem isOpcodeOf_of_decodeFamilyE {w : Word} {i : Instr} (hH : opH w = 0xE#4) (h : decodeFamilyE w = some i) :
    IsOpcodeOf i w := by
  unfold decodeFamilyE at h
  split at h
  case h_3 => cases h
  all_goals next hB => cases h; exact eq_formatXB hH hB

theorem isOpcodeOf_of_decodeFamilyF {w : Word} {i : Instr} (hH : opH w = 0xF#4) (h : decodeFamilyF w = some i) :
    IsOpcodeOf i w := by
  unfold decodeFamilyF at h
  split at h
  case h_10 => cases h
  all_goals next hB => cases h; exact eq_formatXB hH hB

theorem isOpcodeOf_of_decodeOp {w : Word} {i : Instr} (h : decodeOp w = some i) : IsOpcodeOf i w := by
  unfold decodeOp at h
  split at h
  case h_1 => exact isOpcodeOf_of_decodeFamily0 h
  case h_9 hH => exact isOpcodeOf_of_decodeFamily8 hH h
  case h_15 hH => exact isOpcodeOf_of_decodeFamilyE hH h
  case h_16 hH => exact isOpcodeOf_of_decodeFamilyF hH h
  case h_2 hH | h_3 hH | h_11 hH | h_12 hH => cases h; exact eq_formatA hH
  case h_4 hH | h_5 hH | h_7 hH | h_8 hH | h_13 hH => cases h; exact eq_formatXB hH rfl
  case h_6 hH | h_10 hH =>
    split at h
    · next hN => cases h; exact eq_formatXY hH hN
    · cases h
  case h_14 hH => cases h; exact eq_formatXY hH rfl
  case h_17 => cases h

/-- The decoder gives an instruction exactly on that instruction's opcodes. -/
theorem decodeOp_eq_some_iff {w : Word} {i : Instr} : decodeOp w = some i ↔ IsOpcodeOf i w :=
  ⟨isOpcodeOf_of_decodeOp, decodeOp_of_isOpcodeOf⟩

/-! ### The round trips (30_encoding R111, R113) -/

theorem decode_bytesOf {w : Word} {i : Instr} (h : decodeOp w = some i) (rest : List Byte) :
    decode (bytesOf w ++ rest) = .ok (i, rest) := by
  simp [bytesOf, decode, opcodeOf_bytes, h]

/-- Settles O1: an instruction's encoding is one of its opcodes, and its two bytes make up that opcode again. -/
theorem decodeOfEncodeIsTheInstruction : Obligations.DecodeOfEncodeIsTheInstruction := fun i rest =>
  decode_bytesOf (decodeOp_eq_some_iff.mpr (isOpcodeOf_encodeWord i)) rest

/-- Mask 0xFF0F clears the `Y` field. -/
theorem mask_FF0F_formatXY (h x y f : BitVec 4) :
    (h ++ x ++ y ++ f : Word) &&& 0xFF0F#16 = h ++ x ++ 0x0#4 ++ f := by
  have ones : ∀ n : Nibble, n &&& 0xF#4 = n := fun _ => BitVec.and_allOnes
  have hmask : (0xFF0F#16 : Word) = 0xF#4 ++ 0xF#4 ++ 0x0#4 ++ 0xF#4 := rfl
  rw [hmask, BitVec.and_append, BitVec.and_append, BitVec.and_append, ones, ones, ones, BitVec.and_zero]

/-- Settles O2: the opcode is its instruction's encoding, but for the `Y` of the two shifts, which the mask clears. -/
theorem encodeOfDecodeIsTheWordUpToIgnoredY : Obligations.EncodeOfDecodeIsTheWordUpToIgnoredY := by
  intro w i h
  have hw := decodeOp_eq_some_iff.mp h
  cases i with
  | shr x | shl x =>
    obtain ⟨y, rfl⟩ := hw
    simp [encodeWord, mask_FF0F_formatXY]
  | cls | ret => obtain rfl := hw; rfl
  | _ =>
    obtain rfl := hw
    simp [encodeWord]

/-! ### The opcode table (30_encoding R104, R110) -/

theorem OpRow.holds_iff (r : OpRow) (w : Word) : r.holds w = true ↔ w &&& r.mask = r.pattern := beq_iff_eq

theorem OpRow.holds_F000 {p : Word} (hp : p &&& 0xF000#16 = p) (w : Word) :
    OpRow.holds ⟨0xF000#16, p⟩ w = true ↔ opH w = opH p := by
  rw [OpRow.holds_iff, ← mask_F000, ← (mask_F000 p (opH p)).mpr rfl, hp]

theorem OpRow.holds_F00F {p : Word} (hp : p &&& 0xF00F#16 = p) (w : Word) :
    OpRow.holds ⟨0xF00F#16, p⟩ w = true ↔ opH w = opH p ∧ opN w = opN p := by
  rw [OpRow.holds_iff, ← mask_F00F, ← (mask_F00F p (opH p) (opN p)).mpr ⟨rfl, rfl⟩, hp]

theorem OpRow.holds_F0FF {p : Word} (hp : p &&& 0xF0FF#16 = p) (w : Word) :
    OpRow.holds ⟨0xF0FF#16, p⟩ w = true ↔ opH w = opH p ∧ opNN w = opNN p := by
  rw [OpRow.holds_iff, ← mask_F0FF, ← (mask_F0FF p (opH p) (opNN p)).mpr ⟨rfl, rfl⟩, hp]

theorem OpRow.holds_FFFF (p w : Word) : OpRow.holds ⟨0xFFFF#16, p⟩ w = true ↔ w = p := by
  rw [OpRow.holds_iff, show w &&& 0xFFFF#16 = w from BitVec.and_allOnes]

theorem rowOf_holds_of_isOpcodeOf {i : Instr} {w : Word} (h : IsOpcodeOf i w) : (rowOf i).holds w = true := by
  cases i with
  | shr x | shl x =>
    obtain ⟨y, rfl⟩ := h
    simp [rowOf, OpRow.holds_F00F]
  | cls | ret => obtain rfl := h; rfl
  | _ =>
    obtain rfl := h
    simp [rowOf, encodeWord, OpRow.holds_F000, OpRow.holds_F00F, OpRow.holds_F0FF]

theorem decodeOp_of_rowOf_holds {i : Instr} {w : Word} (h : (rowOf i).holds w = true) :
    ∃ j, decodeOp w = some j ∧ rowOf j = rowOf i := by
  cases i with
  | cls | ret =>
    obtain rfl := (OpRow.holds_FFFF _ w).mp h
    exact ⟨_, rfl, rfl⟩
  | jp | call | seImm | sneImm | ldImm | addImm | ldIdx | jpV0 | rnd | drw =>
    have hH := (OpRow.holds_F000 (by decide) w).mp h
    simp [decodeOp, hH, rowOf]
  | seReg | ldReg | orReg | andReg | xorReg | addReg | subReg | shr | subnReg | shl | sneReg =>
    obtain ⟨hH, hN⟩ := (OpRow.holds_F00F (by decide) w).mp h
    simp [decodeOp, decodeFamily8, hH, hN, rowOf]
  | skp | sknp =>
    obtain ⟨hH, hB⟩ := (OpRow.holds_F0FF (by decide) w).mp h
    simp [decodeOp, decodeFamilyE, hH, hB, rowOf]
  | ldFromDt | ldKey | ldDt | ldSt | addIdx | ldFont | ldBcd | stRegs | ldRegs =>
    obtain ⟨hH, hB⟩ := (OpRow.holds_F0FF (by decide) w).mp h
    simp [decodeOp, decodeFamilyF, hH, hB, rowOf]

/-- An opcode lies in an instruction's row exactly when it decodes to an instruction of that row. -/
theorem rowOf_holds_iff (i : Instr) (w : Word) :
    (rowOf i).holds w = true ↔ ∃ j, decodeOp w = some j ∧ rowOf j = rowOf i := by
  refine ⟨decodeOp_of_rowOf_holds, ?_⟩
  rintro ⟨j, hj, hrow⟩
  exact hrow ▸ rowOf_holds_of_isOpcodeOf (decodeOp_eq_some_iff.mp hj)

theorem rowOf_mem_opcodeTable (i : Instr) : rowOf i ∈ opcodeTable := by
  cases i <;> simp [opcodeTable, rowOf]

theorem exists_rowOf_of_mem_opcodeTable : ∀ r ∈ opcodeTable, ∃ i, rowOf i = r := by
  simp [opcodeTable]

/-- Settles O3: every row is some instruction's, and by `rowOf_holds_iff` it holds exactly the opcodes decoding into it. -/
theorem dispatchAgreesWithTheOpcodeTable : Obligations.DispatchAgreesWithTheOpcodeTable := by
  refine ⟨fun w r hr => ?_, fun w => ⟨fun hnone r hr => ?_, fun hall => ?_⟩⟩
  · obtain ⟨i, rfl⟩ := exists_rowOf_of_mem_opcodeTable r hr
    exact rowOf_holds_iff i w
  · obtain ⟨i, rfl⟩ := exists_rowOf_of_mem_opcodeTable r hr
    rw [Bool.eq_false_iff, ne_eq, rowOf_holds_iff, hnone]
    simp
  · rw [Option.eq_none_iff_forall_ne_some]
    intro i hi
    have holds : (rowOf i).holds w = true := (rowOf_holds_iff i w).mpr ⟨i, hi, rfl⟩
    simp [hall _ (rowOf_mem_opcodeTable i)] at holds

/-! ### The unknown opcodes (30_encoding R107) -/

theorem decodeFamily0_eq_none_iff (w : Word) : decodeFamily0 w = none ↔ w ≠ 0x00E0#16 ∧ w ≠ 0x00EE#16 := by
  unfold decodeFamily0
  split_ifs <;> simp [*]

theorem decodeFamily8_eq_none_iff (w : Word) :
    decodeFamily8 w = none ↔ opN w ∉ [0x0#4, 0x1#4, 0x2#4, 0x3#4, 0x4#4, 0x5#4, 0x6#4, 0x7#4, 0xE#4] := by
  unfold decodeFamily8
  split
  case h_10 => simp_all
  all_goals next hN => simp [hN]

theorem decodeFamilyE_eq_none_iff (w : Word) : decodeFamilyE w = none ↔ opNN w ∉ [0x9E#8, 0xA1#8] := by
  unfold decodeFamilyE
  split
  case h_3 => simp_all
  all_goals next hB => simp [hB]

theorem decodeFamilyF_eq_none_iff (w : Word) :
    decodeFamilyF w = none ↔
      opNN w ∉ [0x07#8, 0x0A#8, 0x15#8, 0x18#8, 0x1E#8, 0x29#8, 0x33#8, 0x55#8, 0x65#8] := by
  unfold decodeFamilyF
  split
  case h_10 => simp_all
  all_goals next hB => simp [hB]

/-- The low nibbles that name no row of family 8, as R104's rows leave them out and as R107 lists them. -/
theorem not_mem_family8_nibbles_iff (n : Nibble) :
    n ∉ [0x0#4, 0x1#4, 0x2#4, 0x3#4, 0x4#4, 0x5#4, 0x6#4, 0x7#4, 0xE#4] ↔
      n ∈ [0x8#4, 0x9#4, 0xA#4, 0xB#4, 0xC#4, 0xD#4, 0xF#4] := by
  revert n; decide

/-- Settles O4, by the family: one without a level two decodes always, and each level two has its own condition. -/
theorem unknownOpcodesByFamily : Obligations.UnknownOpcodesByFamily := by
  intro w
  rw [← not_mem_family8_nibbles_iff]
  unfold decodeOp
  split
  case h_1 hH => simp [hH, decodeFamily0_eq_none_iff]
  case h_9 hH => simp [hH, decodeFamily8_eq_none_iff]
  case h_15 hH => simp [hH, decodeFamilyE_eq_none_iff]
  case h_16 hH => simp [hH, decodeFamilyF_eq_none_iff]
  -- The sixteen families are all the values of `H`.
  case h_17 => exfalso; generalize opH w = h at *; revert h; decide
  all_goals next hH => simp [hH]

/-- Settles O5, by running the decoder on the words. -/
theorem wordsOfEachFormatDecode : Obligations.WordsOfEachFormatDecode := by
  unfold Obligations.WordsOfEachFormatDecode
  decide

end Sys2Proof
end

section
namespace Sys2Proof.Machine

/-! ### The step on an unknown opcode (30_encoding R106, 40_cycle R145) -/

theorem step_of_unknown_opcode {s : State} (hpc : s.pc.toNat ≤ 0xFFE) (h : decodeOp s.fetchWord = none) :
    step s = .next (s.beginCycle.unknownOp s.fetchWord).endCycle := by
  have hfetch : s.fetchOk = true := decide_eq_true hpc
  rw [step, if_pos hfetch, h]

/-- Settles O7: the step is `unknownOp` between the start and the end of the cycle; the frame is by computation. -/
theorem unknownOpcodeIsAReportedNoOp : Obligations.UnknownOpcodeIsAReportedNoOp := by
  intro s w hpc hw hnone
  obtain rfl : w = s.fetchWord := BitVec.eq_of_toNat_eq (hw.trans (opcodeOf_toNat _ _).symm)
  refine ⟨_, step_of_unknown_opcode hpc hnone, rfl, ?diag, countDown_toNat s.dt, countDown_toNat s.st,
    State.endCycle_tone_eq _, rfl⟩
  case diag => simp [State.unknownOp]

end Sys2Proof.Machine
end

/-! ### The cycle (40_cycle) -/

section
namespace Sys2Proof.Machine

/-! ### The step on a decoded opcode (40_cycle R144, R154) -/

theorem step_of_exec {s u : State} {i : Instr} (hpc : s.pc.toNat ≤ 0xFFE) (hi : decodeOp s.fetchWord = some i)
    (hu : exec i s.beginCycle = .next u) : step s = .next u.endCycle := by
  have hfetch : s.fetchOk = true := decide_eq_true hpc
  rw [step, if_pos hfetch, hi]
  exact congrArg endOutcome hu

/-- What the fetch of a cycle comes to. -/
theorem fetch_cases (s : State) :
    0xFFF ≤ s.pc.toNat ∨ (s.pc.toNat ≤ 0xFFE ∧ decodeOp s.fetchWord = none) ∨
    (s.pc.toNat ≤ 0xFFE ∧ ∃ i, decodeOp s.fetchWord = some i) := by
  rcases Nat.lt_or_ge 0xFFE s.pc.toNat with h | h
  · exact .inl h
  · cases hd : decodeOp s.fetchWord with
    | none => exact .inr (.inl ⟨h, rfl⟩)
    | some i => exact .inr (.inr ⟨h, i, rfl⟩)

/-- Settles O9: execute keeps what no instruction writes, and the end of the cycle records the outputs it leaves. -/
theorem everyCycleCompletesWithOneOutput : Obligations.EveryCycleCompletesWithOneOutput := by
  intro s
  obtain ⟨u, hu, keeps⟩ := step_keeps s
  exact ⟨_, hu, congrArg (List.cons _) keeps.trace, congrArg (· + 1) keeps.cycleNo, keeps.keys, keeps.prog,
    keeps.params⟩

/-! ### The end of the cycle (40_cycle R147, R148) -/

theorem countDown_eq (b : Byte) : countDown b = BitVec.ofNat 8 (b.toNat - 1) := by
  rw [← countDown_toNat, BitVec.ofNat_toNat, BitVec.setWidth_eq]

theorem State.endCycle_eq (s : State) :
    s.endCycle = { s with
      dt := BitVec.ofNat 8 (s.dt.toNat - 1), st := BitVec.ofNat 8 (s.st.toNat - 1), tone := decide (s.st = 1#8),
      trace := { diag := s.diag, tone := decide (s.st = 1#8) } :: s.trace, cycleNo := s.cycleNo + 1 } := by
  rw [← countDown_eq, ← countDown_eq, ← State.endCycle_tone_eq]
  rfl

theorem State.endCycle_tone_iff (s : State) : s.endCycle.tone = true ↔ s.st = 1#8 := by
  rw [State.endCycle_tone_eq, decide_eq_true_iff]

theorem decodeOp_of_decode {hi lo : Byte} {i : Instr} (h : decode [hi, lo] = .ok (i, [])) :
    decodeOp (opcodeOf hi lo) = some i := by
  unfold decode at h
  cases hd : decodeOp (opcodeOf hi lo) with
  | none => simp [hd] at h
  | some j => simpa [hd] using h

/-- Settles O6: the decoded bytes are the fetched opcode, and the end of the cycle is `State.endCycle_eq`. -/
theorem stepRunsTheDecodedInstruction : Obligations.StepRunsTheDecodedInstruction := by
  intro s i hpc hdecode
  refine ⟨Instr.wellFormed_all i, fun u hu => ?_⟩
  rw [← State.endCycle_eq]
  exact step_of_exec hpc (decodeOp_of_decode hdecode) hu

/-- Execute leaves each timer alone but for its own instruction; so does a cycle that only reports. -/
theorem step_timers (s : State) : ∃ u : State, step s = .next u.endCycle ∧
    (¬ (s.pc.toNat ≤ 0xFFE ∧ ∃ x, decodeOp s.fetchWord = some (.ldDt x)) → u.dt = s.dt) ∧
    (¬ (s.pc.toNat ≤ 0xFFE ∧ ∃ x, decodeOp s.fetchWord = some (.ldSt x)) → u.st = s.st) := by
  obtain hpc | ⟨hpc, hnone⟩ | ⟨hpc, i, hi⟩ := fetch_cases s
  · exact ⟨_, step_of_fetch_oob hpc, fun _ => rfl, fun _ => rfl⟩
  · exact ⟨_, step_of_unknown_opcode hpc hnone, fun _ => rfl, fun _ => rfl⟩
  · obtain ⟨u, hu, frame⟩ := exec_frame i s.beginCycle
    refine ⟨u, step_of_exec hpc hi hu, fun hn => frame.dt ?_, fun hn => frame.st ?_⟩ <;>
    · rintro x rfl
      exact hn ⟨hpc, x, hi⟩

/-- Settles O13: the end of the cycle counts down the timers execute has left alone. -/
theorem timersCountDownEveryCycle : Obligations.TimersCountDownEveryCycle := by
  intro s
  obtain ⟨u, hu, hdt, hst⟩ := step_timers s
  refine ⟨_, hu, fun hn => ?_, fun hn => ?_⟩
  · rw [← hdt hn]
    exact countDown_toNat u.dt
  · rw [← hst hn]
    exact ⟨countDown_toNat u.st, State.endCycle_tone_iff u⟩

/-- Settles O14: the end of the cycle follows execute, so it counts down what FX15 and FX18 wrote, and FX07 has read DT
before it. -/
theorem timerWrittenInExecuteCountsInTheSameCycle : Obligations.TimerWrittenInExecuteCountsInTheSameCycle := by
  intro s x hpc
  refine ⟨fun hi => ?ldDt, fun hi => ?ldSt, fun hi => ?ldFromDt⟩
  case ldDt => exact ⟨_, step_of_exec hpc hi rfl, countDown_toNat (s.reg x)⟩
  case ldSt =>
    refine ⟨_, step_of_exec hpc hi rfl, countDown_toNat (s.reg x), (State.endCycle_tone_iff _).trans ?_⟩
    exact BitVec.toNat_inj.symm
  case ldFromDt =>
    refine ⟨_, step_of_exec hpc hi rfl, ?_, countDown_toNat s.dt⟩
    exact (State.reg_setReg s.beginCycle x x s.dt).trans (if_pos rfl)

end Sys2Proof.Machine
end

/-! ### The random input (40_cycle R153) -/

section
namespace Sys2Proof.Machine

/-- The state with another random input: the byte of cycle number `n`. -/
def State.withCycleNo (s : State) (n : Nat) : State := { s with cycleNo := n }

/-! ### The operations that branch do not look at the cycle number -/

theorem State.skipIf_withCycleNo (s : State) (n : Nat) (c : Bool) :
    (s.withCycleNo n).skipIf c = (s.skipIf c).withCycleNo n := by
  rw [State.skipIf_eq, State.skipIf_eq]; rfl

theorem State.noteKey_withCycleNo (s : State) (n : Nat) (i : Instr) (k : Byte) :
    (s.withCycleNo n).noteKey i k = (s.noteKey i k).withCycleNo n := by
  rw [State.noteKey_eq, State.noteKey_eq]; rfl

theorem State.checkRange_withCycleNo (s t : State) (n : Nat) (i : Instr) (k : Nat) :
    (s.withCycleNo n).checkRange i k (t.withCycleNo n) = (s.checkRange i k t).withCycleNo n := by
  cases hr : rangeOk s.idx k
  · rw [State.checkRange_oob hr]; exact State.checkRange_oob hr
  · rw [State.checkRange_ok hr]; exact State.checkRange_ok hr

/-! ### Neither does any instruction but CXNN -/

/-- Instruction `i` does the same in `s` whatever the random input. -/
def IgnoresRandomByte (i : Instr) (s : State) : Prop :=
  ∃ t, exec i s = .next t ∧ ∀ n, exec i (s.withCycleNo n) = .next (t.withCycleNo n)

theorem ret_ignoresRandomByte (s : State) : IgnoresRandomByte .ret s := by
  unfold IgnoresRandomByte exec execRet
  by_cases h : 0 < s.sp.val
  · rw [State.pop_of_pos h]
    exact ⟨_, rfl, fun n => by rw [State.pop_of_pos (s := s.withCycleNo n) h]; rfl⟩
  · rw [State.pop_of_empty h]
    exact ⟨_, rfl, fun n => by rw [State.pop_of_empty (s := s.withCycleNo n) h]; rfl⟩

theorem call_ignoresRandomByte (nnn : Addr) (s : State) : IgnoresRandomByte (.call nnn) s := by
  unfold IgnoresRandomByte exec execCall
  by_cases h : s.sp.val < 16
  · rw [State.push_of_lt h]
    exact ⟨_, rfl, fun n => by rw [State.push_of_lt (s := s.withCycleNo n) h]; rfl⟩
  · rw [State.push_of_full h]
    exact ⟨_, rfl, fun n => by rw [State.push_of_full (s := s.withCycleNo n) h]; rfl⟩

theorem ldKey_ignoresRandomByte (x : RegIdx) (s : State) : IgnoresRandomByte (.ldKey x) s := by
  have hkey (n : Nat) : (s.withCycleNo n).firstKey = s.firstKey := rfl
  unfold IgnoresRandomByte exec execLdKey
  simp only [hkey]
  cases s.firstKey with
  | none => exact ⟨_, rfl, fun _ => rfl⟩
  | some k => exact ⟨_, rfl, fun _ => rfl⟩

theorem exec_ignoresRandomByte {i : Instr} (hi : ∀ x nn, i ≠ .rnd x nn) (s : State) : IgnoresRandomByte i s := by
  cases i with
  | rnd x nn => exact absurd rfl (hi x nn)
  | ret => exact ret_ignoresRandomByte s
  | call nnn => exact call_ignoresRandomByte nnn s
  | ldKey x => exact ldKey_ignoresRandomByte x s
  | seImm | sneImm | seReg | sneReg => exact ⟨_, rfl, fun n => by rw [← State.skipIf_withCycleNo]; rfl⟩
  | skp | sknp =>
    exact ⟨_, rfl, fun n => by rw [← State.skipIf_withCycleNo, ← State.noteKey_withCycleNo]; rfl⟩
  | drw | ldBcd | stRegs | ldRegs => exact ⟨_, rfl, fun n => by rw [← State.checkRange_withCycleNo]; rfl⟩
  | _ => exact ⟨_, rfl, fun _ => rfl⟩

/-- CXNN is of family C. -/
theorem opH_of_decodeOp_rnd {w : Word} {x : RegIdx} {nn : Byte} (h : decodeOp w = some (.rnd x nn)) :
    opH w = 0xC#4 := by
  obtain rfl : w = 0xC#4 ++ x ++ nn := isOpcodeOf_of_decodeOp h
  exact opH_formatXB _ _ _

/-- Settles O15: fetch and decode do not read the random input, and of the instructions only CXNN does. -/
theorem randomByteMattersOnlyToRnd : Obligations.RandomByteMattersOnlyToRnd := by
  intro s n hfam
  obtain hpc | ⟨hpc, hnone⟩ | ⟨hpc, i, hi⟩ := fetch_cases s
  · exact ⟨_, step_of_fetch_oob hpc, step_of_fetch_oob (s := s.withCycleNo n) hpc⟩
  · exact ⟨_, step_of_unknown_opcode hpc hnone, step_of_unknown_opcode (s := s.withCycleNo n) hpc hnone⟩
  · have hrnd : ∀ x nn, i ≠ .rnd x nn := by
      rintro x nn rfl
      exact hfam ⟨hpc, opH_of_decodeOp_rnd hi⟩
    obtain ⟨u, hu, hun⟩ := exec_ignoresRandomByte hrnd s.beginCycle
    exact ⟨_, step_of_exec hpc hi hu, step_of_exec (s := s.withCycleNo n) hpc hi (hun n)⟩

end Sys2Proof.Machine
end

/-! ### Display (41_display R170 to R173) -/

section
namespace Sys2Proof.Machine

/-! ### CLS -/

/-- Settles O23: 0x00E0 is the only opcode of CLS, and a clear framebuffer has no lit pixel. -/
theorem clearScreenTurnsEveryPixelOff : Obligations.ClearScreenTurnsEveryPixelOff := by
  refine ⟨fun w => ?opcode, fun s => ⟨s.setFb FrameBuf.clear, rfl, fun px py _ _ => ?pixels, rfl⟩⟩
  case opcode => exact decodeOp_eq_some_iff
  case pixels => exact FrameBuf.lit_clear px py

/-! ### The flag byte -/

theorem flagByte_eq_one_iff (c : Bool) : flagByte c = 1#8 ↔ c = true := by cases c <;> decide

theorem flagByte_eq_one_or_zero (c : Bool) : flagByte c = 1#8 ∨ flagByte c = 0#8 := by cases c <;> decide

/-! ### What a draw leaves (41_display R171) -/

/-- The sprite that `DRW Vx, Vy, N` draws in `s` has a set bit on pixel `(px, py)`. -/
def State.spriteOn (s : State) (x y : RegIdx) (n : Nibble) (px py : Nat) : Bool :=
  spriteBit s.mem s.idx.toNat (s.drawCol x) (s.drawRow y) n.toNat px py

theorem exec_drw_of_inRange {s : State} {n : Nibble} (x y : RegIdx)
    (h : n.toNat = 0 ∨ s.idx.toNat + n.toNat - 1 ≤ 0xFFF) : exec (.drw x y n) s = .next (s.draw x y n) := by
  have hok : rangeOk s.idx n.toNat = true := (rangeOk_iff _ _).mpr (by omega)
  exact congrArg Host.Outcome.next (State.checkRange_ok hok)

section
variable (s : State) (x y : RegIdx) (n : Nibble)

theorem State.drawCol_lt : s.drawCol x < 64 := Nat.mod_lt _ (by decide)

theorem State.drawRow_lt : s.drawRow y < 32 := Nat.mod_lt _ (by decide)

theorem State.lit_draw {px py : Nat} (hpx : px < 64) (hpy : py < 32) :
    (s.draw x y n).fb.lit px py = (s.fb.lit px py ^^ s.spriteOn x y n px py) :=
  drawSprite_lit s.mem s.fb (s.drawCol_lt x) (s.drawRow_lt y) (by omega) hpx hpy

theorem State.reg_draw_of_ne {r : RegIdx} (hr : r ≠ vf) : (s.draw x y n).reg r = s.reg r :=
  (State.reg_setFlag _ r _).trans (if_neg hr)

/-- VF after a draw is its collision flag. -/
theorem State.reg_draw_vf :
    (s.draw x y n).reg vf = flagByte (drawSprite s.mem s.idx.toNat (s.drawCol x) (s.drawRow y) n.toNat s.fb).2 :=
  (State.reg_setFlag _ vf _).trans (if_pos rfl)

theorem State.reg_draw_vf_eq_one_iff :
    (s.draw x y n).reg vf = 1#8 ↔
      ∃ px py, px < 64 ∧ py < 32 ∧ s.fb.lit px py = true ∧ s.spriteOn x y n px py = true := by
  rw [State.reg_draw_vf, flagByte_eq_one_iff,
    drawSprite_collision s.mem s.fb (s.drawCol_lt x) (s.drawRow_lt y) (by omega)]
  simp only [State.spriteOn, and_comm (a := spriteBit _ _ _ _ _ _ _ = true)]

end

/-- Settles O24, from the pixels and VF after a draw; the frame is by computation. -/
theorem drawXorsTheSpriteAndSetsCollision : Obligations.DrawXorsTheSpriteAndSetsCollision := by
  intro s x y n hrange
  refine ⟨s.draw x y n, exec_drw_of_inRange x y hrange, ?pixels, ?flag, ?collision, ?others, ?memory, rfl⟩
  case pixels => exact fun px py hpx hpy => s.lit_draw x y n hpx hpy
  case flag => exact s.reg_draw_vf x y n ▸ flagByte_eq_one_or_zero _
  case collision => exact s.reg_draw_vf_eq_one_iff x y n
  case others => exact fun r hr => s.reg_draw_of_ne x y n hr
  case memory => exact fun a => rfl

/-! ### Drawing twice (41_display R173) -/

/-- After a draw, the same sprite lies on the same pixels if neither coordinate is in VF. -/
theorem State.spriteOn_draw (s : State) {x y : RegIdx} (n : Nibble) (hx : x ≠ vf) (hy : y ≠ vf) :
    (s.draw x y n).spriteOn x y n = s.spriteOn x y n := by
  have hcol : (s.draw x y n).drawCol x = s.drawCol x := congrArg (·.toNat % 64) (s.reg_draw_of_ne x y n hx)
  have hrow : (s.draw x y n).drawRow y = s.drawRow y := congrArg (·.toNat % 32) (s.reg_draw_of_ne x y n hy)
  funext px py
  rw [State.spriteOn, State.spriteOn, hcol, hrow]
  rfl

/-- Settles O25: XOR with the same sprite twice gives the old pixel back, and a set bit meets a pixel that the first draw
left lit exactly when the first draw turned that pixel on. -/
theorem drawingTwiceErases : Obligations.DrawingTwiceErases := by
  intro s x y n hx hy hrange
  have hsprite := s.spriteOn_draw n hx hy
  refine ⟨s.draw x y n, (s.draw x y n).draw x y n, exec_drw_of_inRange x y hrange,
    exec_drw_of_inRange x y hrange, FrameBuf.ext_lit fun px py hpx hpy => ?pixels, ?flag⟩
  case pixels =>
    rw [State.lit_draw _ _ _ _ hpx hpy, hsprite, State.lit_draw _ _ _ _ hpx hpy, Bool.xor_assoc, Bool.xor_self,
      Bool.xor_false]
  case flag =>
    rw [State.reg_draw_vf_eq_one_iff, hsprite]
    refine exists₂_congr fun px py => and_congr_right fun hpx => and_congr_right fun hpy => ?_
    rw [State.lit_draw _ _ _ _ hpx hpy]
    cases s.fb.lit px py <;> simp

end Sys2Proof.Machine
end

/-! ### Control transfer (42_flow) -/

section
namespace Sys2Proof.Machine

/-! ### The targets of the jumps (42_flow R181, R183) -/

@[simp] theorem zextAddr_toNat (nnn : Addr) : (zextAddr nnn).toNat = nnn.toNat :=
  BitVec.toNat_setWidth_of_le (by decide)

@[simp] theorem zextByte_toNat (b : Byte) : (zextByte b).toNat = b.toNat :=
  BitVec.toNat_setWidth_of_le (by decide)

/-- The sum of BNNN fits the pc, since it is at most 0xFFF + 0xFF. -/
theorem State.jpV0Target_toNat (s : State) (nnn : Addr) :
    (s.jpV0Target nnn).toNat = nnn.toNat + (s.reg 0x0#4).toNat := by
  have hfits : (zextAddr nnn).toNat + (zextByte (s.reg 0x0#4)).toNat < 2 ^ 16 := by
    have := nnn.isLt
    have := (s.reg 0x0#4).isLt
    rw [zextAddr_toNat, zextByte_toNat]
    omega
  rw [State.jpV0Target, BitVec.toNat_add_of_lt hfits, zextAddr_toNat, zextByte_toNat]

/-- Settles O26: the opcode is the jump's encoding, and the jump is `setPc`. -/
theorem jumpSetsThePc : Obligations.JumpSetsThePc := fun nnn _ =>
  ⟨decodeOp_of_isOpcodeOf (isOpcodeOf_encodeWord (.jp nnn)), _, rfl, zextAddr_toNat nnn, rfl, rfl⟩

/-- Settles O27: the opcode is the jump's encoding, and the target does not wrap. -/
theorem jumpWithOffsetAddsV0 : Obligations.JumpWithOffsetAddsV0 := fun nnn s =>
  ⟨decodeOp_of_isOpcodeOf (isOpcodeOf_encodeWord (.jpV0 nnn)), _, rfl, s.jpV0Target_toNat nnn, rfl⟩

/-! ### Call and return on entry `k` of the stack (42_flow R180, R182)

A call that writes entry `k` takes SP from `k` to `k + 1`, and the return that reads the entry takes it back. -/

theorem exec_call_of_room {s : State} {k : Fin 16} (nnn : Addr) (h : s.sp = k.castSucc) :
    exec (.call nnn) s =
      .next { s with pc := zextAddr nnn, stack := s.stack.set k s.pc, sp := k.succ } := by
  have hroom : s.sp.val < 16 := by simp [h]
  rw [exec, execCall, State.push_of_lt hroom]
  simp only [h]
  rfl

theorem exec_ret_of_entry {s : State} {k : Fin 16} (h : s.sp = k.succ) :
    exec .ret s = .next { s with pc := s.stack[k], sp := k.castSucc } := by
  have hpos : 0 < s.sp.val := by simp [h]
  rw [exec, execRet, State.pop_of_pos hpos]
  simp only [h]
  rfl

/-- Settles O28, from `exec_call_of_room` at entry SP. -/
theorem callPushesTheReturnAddress : Obligations.CallPushesTheReturnAddress := by
  intro nnn s hroom
  refine ⟨_, exec_call_of_room (k := ⟨s.sp.val, hroom⟩) nnn rfl, zextAddr_toNat nnn, rfl, fun j => ?entries, rfl⟩
  case entries => simp [Vector.getElem_set, eq_comm]

/-- Settles O29, from `exec_ret_of_entry`. -/
theorem returnPopsTheReturnAddress : Obligations.ReturnPopsTheReturnAddress := fun _ _ hsp =>
  ⟨_, exec_ret_of_entry (Fin.ext hsp), rfl, rfl, rfl⟩

/-- Settles O30: the return reads the entry that the call wrote. -/
theorem returnGoesBackAfterTheCall : Obligations.ReturnGoesBackAfterTheCall := by
  intro nnn s hroom
  refine ⟨_, exec_call_of_room (k := ⟨s.sp.val, hroom⟩) nnn rfl, fun u hstack hsp => ?_⟩
  refine ⟨_, exec_ret_of_entry (k := ⟨s.sp.val, hroom⟩) hsp, ?pc, rfl, rfl⟩
  case pc => simp [hstack]

/-! ### The stack's own failures (42_flow R180, R182; 60_exceptions R243) -/

theorem State.failedPc_eq (s : State) :
    s.failedPc = if s.params.failPc = .hold then s.pc - 2#16 else s.pc := by
  cases h : s.params.failPc with
  | advance => simpa using State.failedPc_advance h
  | hold => simpa using State.failedPc_hold h

theorem exec_ret_of_empty {s : State} (h : s.sp.val = 0) :
    exec .ret s = .next (s.raise (.stackUnderflow s.instrAddr (encodeWord .ret))) := by
  rw [exec, execRet, State.pop_of_empty (by omega)]

theorem exec_call_of_full {s : State} (nnn : Addr) (h : s.sp.val = 16) :
    exec (.call nnn) s = .next (s.raise (.stackOverflow s.instrAddr (encodeWord (.call nnn)))) := by
  rw [exec, execCall, State.push_of_full (by omega)]

/-- Settles O31: each failure is a raise, which writes the diagnostic and the pc. -/
theorem stackFailuresAreReportedAndWriteNothing : Obligations.StackFailuresAreReportedAndWriteNothing := by
  refine ⟨fun s hempty => ?underflow, fun s nnn hfull => ?overflow⟩
  case underflow => rw [exec_ret_of_empty hempty, State.raise_eq, State.failedPc_eq]; rfl
  case overflow => rw [exec_call_of_full nnn hfull, State.raise_eq, State.failedPc_eq]; rfl

end Sys2Proof.Machine
end

/-! ### Conditional skips (43_skip) -/

section
namespace Sys2Proof.Machine

/-! ### The skip on a comparison of two bytes (43_skip R190 to R194) -/

section
variable (s : State) (a b : Byte) (c : Bool)

theorem State.skipIf_eq_withPc : s.skipIf c = { s with pc := (s.skipIf c).pc } := by
  rw [State.skipIf_eq]; rfl

/-- The skip of R190: the pc moves by 2 more, modulo 2^16. -/
theorem State.skipIf_pc_toNat :
    (s.skipIf c).pc.toNat = if c then (s.pc.toNat + 2) % 65536 else s.pc.toNat := by
  cases c with
  | false => rfl
  | true => exact BitVec.toNat_add s.pc 2#16

theorem State.skipIf_beq_pc_toNat :
    (s.skipIf (a == b)).pc.toNat = if a.toNat = b.toNat then (s.pc.toNat + 2) % 65536 else s.pc.toNat := by
  simp only [State.skipIf_pc_toNat, beq_iff_eq, BitVec.toNat_inj]

theorem State.skipIf_bne_pc_toNat :
    (s.skipIf (a != b)).pc.toNat = if a.toNat = b.toNat then s.pc.toNat else (s.pc.toNat + 2) % 65536 := by
  simp only [State.skipIf_pc_toNat, bne_iff_ne, ne_eq, ite_not, BitVec.toNat_inj]

end

/-- Settles O32: the opcodes are the encodings, and the skip is on a comparison of Vx with NN. -/
theorem skipsOnAnImmediate : Obligations.SkipsOnAnImmediate := by
  refine fun x nn s => ⟨⟨?decodeSe, _, rfl, s.skipIf_beq_pc_toNat _ _, s.skipIf_eq_withPc _⟩,
    ?decodeSne, _, rfl, s.skipIf_bne_pc_toNat _ _, s.skipIf_eq_withPc _⟩
  case decodeSe => exact decodeOp_of_isOpcodeOf (isOpcodeOf_encodeWord (.seImm x nn))
  case decodeSne => exact decodeOp_of_isOpcodeOf (isOpcodeOf_encodeWord (.sneImm x nn))

/-- Settles O33: families 5 and 9 look at the low nibble, and the skip is on a comparison of Vx with Vy. -/
theorem skipsOnTwoRegisters : Obligations.SkipsOnTwoRegisters := by
  refine fun x y n s => ⟨⟨?decodeSe, _, rfl, s.skipIf_beq_pc_toNat _ _, s.skipIf_eq_withPc _⟩,
    ?decodeSne, _, rfl, s.skipIf_bne_pc_toNat _ _, s.skipIf_eq_withPc _⟩
  case decodeSe | decodeSne => simp [decodeOp]

/-! ### The skip on a key (43_skip R195 to R197) -/

/-- A key reads as pressed only if it exists. -/
theorem State.key_iff (s : State) (k : Nat) : s.key k = true ↔ k < 16 ∧ s.keys[k]? = some true := by
  by_cases hk : k < 16 <;> simp [State.key, hk]

/-- The report of a key index that does not exist writes the diagnostic, and the skip after it the pc. -/
theorem State.skipIf_noteKey (s : State) (i : Instr) (k : Byte) (c : Bool) :
    (s.noteKey i k).skipIf c =
      { s with
        pc := if c then s.pc + 2#16 else s.pc
        diag := if 16 ≤ k.toNat then some (.keyRange s.instrAddr (encodeWord i) k) else s.diag } := by
  rw [State.skipIf_eq, State.noteKey_eq]; rfl

/-- Settles O34: both skips are `skipIf` after `noteKey`, on the key's level and on its negation. -/
theorem skipsOnAKey : Obligations.SkipsOnAKey := by
  refine fun x s => ⟨⟨_, congrArg Host.Outcome.next (s.skipIf_noteKey (.skp x) _ _), ?pressed, rfl, rfl⟩,
    _, congrArg Host.Outcome.next (s.skipIf_noteKey (.sknp x) _ _), ?notPressed, rfl, rfl⟩
  case pressed => simp only [State.key_iff]
  case notPressed => simp only [Bool.not_eq_true', ← Bool.not_eq_true, State.key_iff, ite_not]

end Sys2Proof.Machine
end

/-! ### Register loads and arithmetic (44_alu) -/

section
namespace Sys2Proof.Machine

/-! ### The flag values as numbers (44_alu R206 to R210) -/

theorem flagByte_decide_toNat (p : Prop) [Decidable p] : (flagByte (decide p)).toNat = if p then 1 else 0 := by
  by_cases hp : p <;> simp [flagByte, hp]

theorem carryFlag_toNat (a b : Byte) : (carryFlag a b).toNat = if a.toNat + b.toNat > 255 then 1 else 0 :=
  flagByte_decide_toNat _

theorem noBorrowFlag_toNat (a b : Byte) : (noBorrowFlag a b).toNat = if a.toNat > b.toNat then 1 else 0 :=
  flagByte_decide_toNat _

theorem lowBit_toNat (a : Byte) : (lowBit a).toNat = a.toNat % 2 := by
  rw [lowBit, BitVec.toNat_and]
  exact Nat.and_one_is_mod a.toNat

theorem highBit_toNat (a : Byte) : (highBit a).toNat = a.toNat / 128 := by
  rw [highBit, BitVec.toNat_ushiftRight, Nat.shiftRight_eq_div_pow]

/-! ### The results as numbers (44_alu R212) -/

theorem byte_sub_toNat (a b : Byte) : (a - b).toNat = (a.toNat + 256 - b.toNat) % 256 := by
  have := b.isLt
  rw [BitVec.toNat_sub]
  omega

theorem byte_shiftRight_one_toNat (a : Byte) : (a >>> 1).toNat = a.toNat / 2 := by
  rw [BitVec.toNat_ushiftRight, Nat.shiftRight_one]

theorem byte_shiftLeft_one_toNat (a : Byte) : (a <<< 1).toNat = a.toNat * 2 % 256 := by
  rw [BitVec.toNat_shiftLeft, Nat.shiftLeft_eq, Nat.pow_one]

/-! ### The registers after the writes of an instruction (44_alu R213) -/

section
variable (s : State) {x r : RegIdx} (a f : Byte)

theorem State.reg_setReg_self : (s.setReg x a).reg x = a :=
  (s.reg_setReg x x a).trans (if_pos rfl)

theorem State.reg_setReg_of_ne (hr : r ≠ x) : (s.setReg x a).reg r = s.reg r :=
  (s.reg_setReg x r a).trans (if_neg hr)

theorem State.reg_setFlag_vf : (s.setFlag f).reg vf = f := s.reg_setReg_self f

theorem State.reg_setFlag_of_ne (hr : r ≠ vf) : (s.setFlag f).reg r = s.reg r := s.reg_setReg_of_ne f hr

/-- The destination of 8XY4, 8XY5 and 8XY7 keeps the result under the flag, unless it is VF. -/
theorem State.reg_setReg_setFlag_self (hx : x ≠ vf) : ((s.setReg x a).setFlag f).reg x = a := by
  rw [State.reg_setFlag_of_ne _ _ hx, State.reg_setReg_self]

theorem State.reg_setReg_setFlag_of_ne (hr : r ≠ x) (hf : r ≠ vf) : ((s.setReg x a).setFlag f).reg r = s.reg r := by
  rw [State.reg_setFlag_of_ne _ _ hf, State.reg_setReg_of_ne _ _ hr]

/-- VF keeps the bit that 8XY6 and 8XYE shift out under the result, unless it is the destination. -/
theorem State.reg_setFlag_setReg_vf (hx : x ≠ vf) : ((s.setFlag f).setReg x a).reg vf = f := by
  rw [State.reg_setReg_of_ne _ _ hx.symm, State.reg_setFlag_vf]

theorem State.reg_setFlag_setReg_of_ne (hr : r ≠ x) (hf : r ≠ vf) : ((s.setFlag f).setReg x a).reg r = s.reg r := by
  rw [State.reg_setReg_of_ne _ _ hr, State.reg_setFlag_of_ne _ _ hf]

end

/-! ### Addition and subtraction (44_alu R206, R207, R209) -/

/-- Settles O37: the sum is written first and the carry over it, both from the old operands. -/
theorem addRegistersSetsCarry : Obligations.AddRegistersSetsCarry := by
  refine fun x y s => ⟨?decode, _, rfl, ?carry, fun hx => ?sum, fun r => s.reg_setReg_setFlag_of_ne _ _, rfl⟩
  case decode => exact decodeOp_of_isOpcodeOf (isOpcodeOf_encodeWord (.addReg x y))
  case carry => rw [State.reg_setFlag_vf, carryFlag_toNat]
  case sum => rw [State.reg_setReg_setFlag_self _ _ _ hx, BitVec.toNat_add]

/-- Settles O38: the difference is written first and the no-borrow flag over it, both from the old operands. -/
theorem subtractRegistersSetsNoBorrow : Obligations.SubtractRegistersSetsNoBorrow := by
  refine fun x y s => ⟨⟨?decodeSub, _, rfl, ?flagSub, fun hx => ?differenceSub,
      fun r => s.reg_setReg_setFlag_of_ne _ _, rfl⟩,
    ?decodeSubn, _, rfl, ?flagSubn, fun hx => ?differenceSubn, fun r => s.reg_setReg_setFlag_of_ne _ _, rfl⟩
  case decodeSub => exact decodeOp_of_isOpcodeOf (isOpcodeOf_encodeWord (.subReg x y))
  case decodeSubn => exact decodeOp_of_isOpcodeOf (isOpcodeOf_encodeWord (.subnReg x y))
  case flagSub | flagSubn => rw [State.reg_setFlag_vf, noBorrowFlag_toNat]
  case differenceSub | differenceSubn => rw [State.reg_setReg_setFlag_self _ _ _ hx, byte_sub_toNat]

/-! ### Shifts (44_alu R208, R210) -/

/-- The flag of 8FY6 is a single bit, which the shift then drops. -/
theorem lowBit_shiftRight_toNat (a : Byte) : (lowBit a >>> 1).toNat = 0 := by
  rw [byte_shiftRight_one_toNat, lowBit_toNat]
  omega

/-- The flag of 8FYE is a single bit, which the shift then doubles. -/
theorem highBit_shiftLeft_toNat (a : Byte) : (highBit a <<< 1).toNat = if 128 ≤ a.toNat then 2 else 0 := by
  have := a.isLt
  rw [byte_shiftLeft_one_toNat, highBit_toNat]
  split <;> omega

/-- Settles O39: the flag is written first, so the shift reads the old Vx unless X = F, when it reads the flag. -/
theorem shiftsByOne : Obligations.ShiftsByOne := by
  refine fun x y s => ⟨⟨?decodeShr, _, rfl, fun hx => ⟨?resultShr, ?flagShr⟩, ?shrOfFlag,
      fun r => s.reg_setFlag_setReg_of_ne _ _, rfl⟩,
    ?decodeShl, _, rfl, fun hx => ⟨?resultShl, ?flagShl⟩, ?shlOfFlag, fun r => s.reg_setFlag_setReg_of_ne _ _, rfl⟩
  case decodeShr | decodeShl => exact decodeOp_of_isOpcodeOf ⟨y, rfl⟩
  case resultShr => rw [State.reg_setReg_self, State.reg_setFlag_of_ne _ _ hx, byte_shiftRight_one_toNat]
  case resultShl => rw [State.reg_setReg_self, State.reg_setFlag_of_ne _ _ hx, byte_shiftLeft_one_toNat]
  case flagShr => rw [State.reg_setFlag_setReg_vf _ _ _ hx, lowBit_toNat]
  case flagShl => rw [State.reg_setFlag_setReg_vf _ _ _ hx, highBit_toNat]
  case shrOfFlag =>
    rintro rfl
    rw [State.reg_setReg_self, State.reg_setFlag_vf, lowBit_shiftRight_toNat]
  case shlOfFlag =>
    rintro rfl
    rw [State.reg_setReg_self, State.reg_setFlag_vf, highBit_shiftLeft_toNat]

/-! ### Instructions that write register X alone (44_alu R200 to R205, R211) -/

/-- Settles O35: each opcode is the instruction's encoding, and each instruction is one `setReg`. -/
theorem loadsAndAddImmediate : Obligations.LoadsAndAddImmediate := by
  refine fun x y nn s =>
    ⟨⟨?decodeLdImm, _, rfl, s.reg_setReg_self _, fun r => s.reg_setReg_of_ne _, rfl⟩,
      ⟨?decodeAddImm, _, rfl, ?sum, fun r => s.reg_setReg_of_ne _, rfl⟩,
      ?decodeLdReg, _, rfl, s.reg_setReg_self _, fun r => s.reg_setReg_of_ne _, rfl⟩
  case decodeLdImm => exact decodeOp_of_isOpcodeOf (isOpcodeOf_encodeWord (.ldImm x nn))
  case decodeAddImm => exact decodeOp_of_isOpcodeOf (isOpcodeOf_encodeWord (.addImm x nn))
  case decodeLdReg => exact decodeOp_of_isOpcodeOf (isOpcodeOf_encodeWord (.ldReg x y))
  case sum => rw [State.reg_setReg_self, BitVec.toNat_add]

/-- Settles O36: each instruction is one `setReg`, of a bitwise operation on the old operands. -/
theorem bitwiseOperationsSetNoFlag : Obligations.BitwiseOperationsSetNoFlag := by
  refine fun x y s =>
    ⟨⟨_, rfl, fun k _ => ?or, fun r => s.reg_setReg_of_ne _, rfl⟩,
      ⟨_, rfl, fun k _ => ?and, fun r => s.reg_setReg_of_ne _, rfl⟩,
      _, rfl, fun k _ => ?xor, fun r => s.reg_setReg_of_ne _, rfl⟩
  case or => rw [State.reg_setReg_self, BitVec.getLsbD_or]
  case and => rw [State.reg_setReg_self, BitVec.getLsbD_and]
  case xor => rw [State.reg_setReg_self, BitVec.getLsbD_xor]

/-- Settles O40: the mask keeps the random byte's bit where NN has 1 and clears it elsewhere. -/
theorem randomByteUnderAMask : Obligations.RandomByteUnderAMask := by
  refine fun x nn s => ⟨?decode, _, rfl, fun k hk => ?clear, fun k hk => ?kept, fun r => s.reg_setReg_of_ne _, rfl⟩
  case decode => exact decodeOp_of_isOpcodeOf (isOpcodeOf_encodeWord (.rnd x nn))
  case clear => rw [State.reg_setReg_self, BitVec.getLsbD_and, hk, Bool.and_false]
  case kept => rw [State.reg_setReg_self, BitVec.getLsbD_and, hk, Bool.and_true, State.randByte]

end Sys2Proof.Machine
end

/-! ### The index register and memory transfers (45_index_memory) -/

section
namespace Sys2Proof.Machine

/-! ### The index instructions (45_index_memory R220 to R222) -/

/-- Settles O41: each opcode is the instruction's encoding, and each instruction is one `setIdx`. -/
theorem indexLoadAndAdd : Obligations.IndexLoadAndAdd := by
  refine fun nnn x s => ⟨⟨?decodeLd, _, rfl, zextAddr_toNat nnn, rfl⟩, ?decodeAdd, _, rfl, ?sum, rfl⟩
  case decodeLd => exact decodeOp_of_isOpcodeOf (isOpcodeOf_encodeWord (.ldIdx nnn))
  case decodeAdd => exact decodeOp_of_isOpcodeOf (isOpcodeOf_encodeWord (.addIdx x))
  case sum => rw [State.setIdx_idx, BitVec.toNat_add, zextByte_toNat]

/-- Power-on loads no program, so it leaves the whole font, wherever PROGRAM_START is. -/
theorem State.read_powerOn_font (p : Params) {j : Nat} (hj : j < 80) :
    (State.powerOn p).mem.read (p.fontBase.val + j) = p.fontTable[j] := by
  obtain ⟨-, hprog, -⟩ := State.powerOn_inv p
  have hfree : p.fontBase.val + j < p.programStart.toNat ∨ p.programStart.toNat + 0 ≤ p.fontBase.val + j := by omega
  rw [← State.hostReset_powerOn]
  exact State.read_hostReset_font hprog hj (.inr hfree)

/-- Settles O42: the glyph's address is `glyphAddr_toNat`, and its bytes lie within the font of power-on. -/
theorem fontPointer : Obligations.FontPointer := by
  intro x s
  have haddr := s.glyphAddr_toNat (s.reg x)
  refine ⟨_, rfl, haddr, rfl, fun k hk => ?glyph⟩
  case glyph =>
    have hj : 5 * ((s.reg x).toNat % 16) + k < 80 := by omega
    rw [State.setIdx_idx, haddr, Nat.add_assoc, State.read_powerOn_font _ hj, Vector.getElem?_eq_getElem hj]

/-! ### Accesses in range (20_memory R77, R88) -/

/-- Byte `k` of a run of bytes within the address space that is written. -/
theorem Memory.read_writeBytes_add (m : Memory) {a k : Nat} {bs : List Byte} (h : a + bs.length ≤ 4096)
    (hk : k < bs.length) : (m.writeBytes a bs).read (a + k) = bs[k] := by
  rw [Memory.read_writeBytes _ _ _ _ h, dif_pos (by omega)]
  simp

section
variable {s : State} {x : RegIdx}

theorem exec_ldBcd_of_inRange (h : s.idx.toNat + 2 ≤ 0xFFF) :
    exec (.ldBcd x) s = .next (s.setMem (s.mem.writeBytes (s.indexAddr 0) (digits (s.reg x)))) :=
  congrArg Host.Outcome.next (State.checkRange_ok ((rangeOk_iff _ _).2 (.inr (by omega))))

theorem rangeOk_regCount (h : s.idx.toNat + x.toNat ≤ 0xFFF) : rangeOk s.idx (regCount x) = true :=
  (rangeOk_iff _ _).2 (.inr (by rw [regCount]; omega))

theorem exec_stRegs_of_inRange (h : s.idx.toNat + x.toNat ≤ 0xFFF) :
    exec (.stRegs x) s = .next (s.setMem (s.mem.writeBytes (s.indexAddr 0) (s.regsUpTo x))) :=
  congrArg Host.Outcome.next (State.checkRange_ok (rangeOk_regCount h))

theorem exec_ldRegs_of_inRange (h : s.idx.toNat + x.toNat ≤ 0xFFF) :
    exec (.ldRegs x) s = .next (s.setRegs (s.mem.readBytes (s.indexAddr 0) (regCount x))) :=
  congrArg Host.Outcome.next (State.checkRange_ok (rangeOk_regCount h))

end

/-! ### The decimal digits (45_index_memory R223) -/

/-- Digit `k` of a byte, hundreds first, as a number. -/
theorem digits_getElem_toNat (b : Byte) {k : Nat} (hk : k < (digits b).length) :
    (digits b)[k].toNat = b.toNat / 10 ^ (2 - k) % 10 := by
  have hk3 : k < 3 := hk
  have := b.isLt
  interval_cases k
  all_goals
    change (BitVec.ofNat 8 _).toNat = _
    rw [BitVec.toNat_ofNat]
    omega

/-- Byte `k` of the digits that FX33 stores is digit `k`. -/
theorem State.read_writeBytes_digits {s : State} (b : Byte) {k : Nat} (h : s.idx.toNat + 2 ≤ 0xFFF) (hk : k < 3) :
    ((s.mem.writeBytes (s.indexAddr 0) (digits b)).read (s.indexAddr k)).toNat = b.toNat / 10 ^ (2 - k) % 10 := by
  have hrange : s.indexAddr 0 + (digits b).length ≤ 4096 := Nat.succ_le_succ h
  rw [← digits_getElem_toNat b hk]
  exact congrArg BitVec.toNat (Memory.read_writeBytes_add s.mem hrange hk)

/-- Settles O43: byte `k` of the three is digit `k`, and the digits of a byte sum up to it. -/
theorem decimalDigitsAreStored : Obligations.DecimalDigitsAreStored := by
  intro x s h
  refine ⟨_, exec_ldBcd_of_inRange h, ?sum, fun k hk => ?bound, fun a ha => ?kept, rfl⟩
  case sum =>
    have hbyte := (s.reg x).isLt
    simp only [State.setMem_mem, State.read_writeBytes_digits _ h, Nat.reduceLT]
    omega
  case bound =>
    rw [State.setMem_mem, State.read_writeBytes_digits _ h hk]
    omega
  case kept => exact Memory.read_writeBytes_ne (digits (s.reg x)) _ _ a ha

/-! ### The registers in memory (45_index_memory R224, R225) -/

/-- Settles O44: byte `k` of the run is register `k`. -/
theorem registersAreStored : Obligations.RegistersAreStored := by
  intro x s h
  refine ⟨_, exec_stRegs_of_inRange h, fun k hk => ?stored, fun a ha => ?kept, rfl⟩
  case stored =>
    have hrange : s.indexAddr 0 + (s.regsUpTo x).length ≤ 4096 := by
      rw [State.regsUpTo_length]
      exact Nat.succ_le_succ h
    have hlen : k.toNat < (s.regsUpTo x).length := by
      rw [State.regsUpTo_length]
      omega
    have hread := Memory.read_writeBytes_add s.mem hrange hlen
    rw [State.regsUpTo_getElem, BitVec.ofNat_toNat, BitVec.setWidth_eq] at hread
    exact hread
  case kept =>
    exact Memory.read_writeBytes_ne _ _ _ a (by rwa [State.regsUpTo_length])

/-- Settles O45: register `k` is byte `k` of the run, and the run ends at register X. -/
theorem registersAreLoaded : Obligations.RegistersAreLoaded := by
  intro x s h
  refine ⟨_, exec_ldRegs_of_inRange h, fun k hk => ?loaded, fun r hr => ?kept, fun _ => rfl, rfl⟩
  case loaded =>
    have hlen : k.toNat < (s.mem.readBytes (s.indexAddr 0) (regCount x)).length := by
      rw [Memory.readBytes_length, regCount]
      omega
    rw [State.reg_setRegs, dif_pos hlen, Memory.readBytes_getElem]
    rfl
  case kept =>
    have hlen : ¬ r.toNat < (s.mem.readBytes (s.indexAddr 0) (regCount x)).length := by
      rw [Memory.readBytes_length, regCount]
      omega
    rw [State.reg_setRegs, dif_neg hlen]

/-- Settles O46: the load reads the bytes the store wrote, at the same addresses. -/
theorem loadGivesBackWhatWasStored : Obligations.LoadGivesBackWhatWasStored := by
  intro x s h
  obtain ⟨t, ht, stored, -, -⟩ := registersAreStored x s h
  refine ⟨t, ht, fun u hmem hidx => ?_⟩
  obtain ⟨w, hw, loaded, -, -, -⟩ := registersAreLoaded x u (by rwa [hidx])
  refine ⟨w, hw, fun k hk => ?_⟩
  calc w.reg k = u.mem.read (u.indexAddr k.toNat) := loaded k hk
    _ = t.mem.read (s.indexAddr k.toNat) := by rw [hmem, State.indexAddr, hidx, State.indexAddr]
    _ = s.reg k := stored k hk

/-- Settles O17: the fetch reads the two bytes at `I`, where the store put V0 and V1. -/
theorem storeIsSeenByTheNextFetch : Obligations.StoreIsSeenByTheNextFetch := by
  intro s x hx h
  obtain ⟨t, ht, stored, -, -⟩ := registersAreStored x s h
  have hhigh : t.mem.read s.idx.toNat = s.reg 0x0#4 := stored 0x0#4 (Nat.zero_le _)
  have hlow : t.mem.read (s.idx.toNat + 1) = s.reg 0x1#4 := stored 0x1#4 hx
  refine ⟨t, ht, ?_⟩
  rw [State.fetchWord, opcodeOf_toNat, hhigh, hlow]

end Sys2Proof.Machine
end

/-! ### Timers and keys (46_timers_keys) -/

section
namespace Sys2Proof.Machine

/-! ### The timer transfers (46_timers_keys R230 to R232) -/

/-- Settles O48: each opcode is the instruction's encoding, each instruction is one write, and the end of the cycle
counts down what that write left. -/
theorem timerTransfers : Obligations.TimerTransfers := by
  refine fun x s =>
    ⟨⟨?decodeFromDt, _, rfl, s.reg_setReg_self _, fun r => s.reg_setReg_of_ne _, rfl, countDown_toNat s.dt⟩,
      ⟨?decodeDt, _, rfl, rfl, rfl, countDown_toNat (s.reg x)⟩,
      ?decodeSt, _, rfl, rfl, rfl, countDown_toNat (s.reg x), ?tone⟩
  case decodeFromDt => exact decodeOp_of_isOpcodeOf (isOpcodeOf_encodeWord (.ldFromDt x))
  case decodeDt => exact decodeOp_of_isOpcodeOf (isOpcodeOf_encodeWord (.ldDt x))
  case decodeSt => exact decodeOp_of_isOpcodeOf (isOpcodeOf_encodeWord (.ldSt x))
  case tone => exact (State.endCycle_tone_iff _).trans BitVec.toNat_inj.symm

/-! ### The key wait (46_timers_keys R233) -/

theorem State.key_val (s : State) (k : Fin 16) : s.key k.val = s.keys[k] := by
  simp [State.key]

section
variable {s : State} (x : RegIdx)

theorem State.firstKey_eq_some {k : Fin 16} (hk : s.keys[k] = true) (hlow : ∀ j : Fin 16, j < k → s.keys[j] = false) :
    s.firstKey = some k.val := by
  rw [← s.key_val] at hk
  obtain ⟨j, hj, hj16, hpressed, hbelow⟩ | ⟨-, hnone⟩ := s.firstKey_cases
  · obtain hjk | rfl | hkj := Nat.lt_trichotomy j k.val
    · simp [s.key_val ⟨j, hj16⟩, hlow ⟨j, hj16⟩ hjk] at hpressed
    · exact hj
    · simp [hbelow _ hkj] at hk
  · simp [hnone _ k.isLt] at hk

theorem State.firstKey_eq_none (h : ∀ k : Fin 16, s.keys[k] = false) : s.firstKey = none := by
  obtain ⟨k, -, hk, hpressed, -⟩ | ⟨hnone, -⟩ := s.firstKey_cases
  · simp [s.key_val ⟨k, hk⟩, h] at hpressed
  · exact hnone

theorem exec_ldKey_of_firstKey {k : Nat} (h : s.firstKey = some k) :
    exec (.ldKey x) s = .next (s.setReg x (BitVec.ofNat 8 k)) := by
  change execLdKey x s = _
  rw [execLdKey, h]

/-- The key wait with no key pressed: the pc goes back to the instruction. -/
theorem exec_ldKey_of_no_key (h : ∀ k : Fin 16, s.keys[k] = false) :
    exec (.ldKey x) s = .next (s.setPc s.instrAddr) := by
  change execLdKey x s = _
  rw [execLdKey, State.firstKey_eq_none h]

end

/-- Settles O49: the scan finds the lowest pressed key, whose number fits a register, or none. -/
theorem keyWaitTakesTheLowestKeyOrRepeats : Obligations.KeyWaitTakesTheLowestKeyOrRepeats := by
  refine fun x s => ⟨fun k hk hlow => ?pressed, exec_ldKey_of_no_key x⟩
  case pressed =>
    have hexec := exec_ldKey_of_firstKey x (State.firstKey_eq_some hk hlow)
    refine ⟨_, hexec, ?key, fun r => s.reg_setReg_of_ne _, rfl⟩
    case key =>
      rw [State.reg_setReg_self, BitVec.toNat_ofNat]
      omega

/-- A cycle that waits for a key puts the pc back where it was before the fetch. -/
theorem step_of_keyWait {s : State} {x : RegIdx} (hpc : s.pc.toNat ≤ 0xFFE)
    (hi : decodeOp s.fetchWord = some (.ldKey x)) (hkeys : ∀ k : Fin 16, s.keys[k] = false) :
    step s = .next (s.beginCycle.setPc s.pc).endCycle := by
  rw [step_of_exec hpc hi (exec_ldKey_of_no_key x hkeys), State.instrAddr_beginCycle]

/-- Settles O50: the wait undoes the cycle's own move of the pc, so the end of the cycle leaves only its own writes. -/
theorem keyWaitRefetchesItself : Obligations.KeyWaitRefetchesItself :=
  fun _ _ hpc hi hkeys => ⟨_, step_of_keyWait hpc hi hkeys, rfl, rfl, rfl, rfl⟩

end Sys2Proof.Machine
end

/-! ### What reset reads, and the load (70_reset R271, R273) -/

section
namespace Sys2Proof.Machine

/-- Of the parameters, the memory reset leaves depends on FONT_BASE, PROGRAM_START and FONT_TABLE alone. -/
theorem resetMemory_congr {p q : Params} (hbase : p.fontBase = q.fontBase) (hstart : p.programStart = q.programStart)
    (htable : p.fontTable = q.fontTable) (bs : List Byte) : resetMemory p bs = resetMemory q bs := by
  rw [resetMemory, resetMemory, hbase, hstart, htable]

/-- Settles O52: reset writes fixed values but for the pc and memory, which read only these constants and `P`. -/
theorem resetIsIdempotentAndDependsOnlyOnP : Obligations.ResetIsIdempotentAndDependsOnlyOnP := by
  refine ⟨fun s => State.resetWith_resetWith s s.prog s.prog, fun s u hprog hbase hstart htable => ?_⟩
  simp only [State.hostReset, State.resetWith, hprog, hstart, resetMemory_congr hbase hstart htable]

section
variable {s : State} {bytes : List Byte}

theorem State.loadProgram_of_fits (h : loadFits s.params bytes = true) :
    s.loadProgram bytes = (.success, (s.setProg bytes).hostReset) := if_pos h

theorem State.loadProgram_of_not_fits (h : ¬ loadFits s.params bytes = true) : s.loadProgram bytes = (.failure, s) :=
  if_neg h

theorem State.loadProgram_success_iff : (s.loadProgram bytes).1 = .success ↔ loadFits s.params bytes = true := by
  by_cases h : loadFits s.params bytes = true
  · simp [State.loadProgram_of_fits h, h]
  · simp [State.loadProgram_of_not_fits h, h]

end

/-- Settles O53: `loadFits` decides the answer, and a program that fits is the `P` that the reset copies. -/
theorem loadProgramSucceedsExactlyWhenItFits : Obligations.LoadProgramSucceedsExactlyWhenItFits := by
  intro s bytes
  refine ⟨fun hfits => ?success, fun hbad => State.loadProgram_of_not_fits ?failure, fun hstart => ?default⟩
  case success =>
    rw [State.loadProgram_of_fits ((loadFits_iff _ _).2 hfits)]
    have hprog : progOk (s.setProg bytes).params (s.setProg bytes).prog = true := (progOk_iff _ _).2 hfits.2
    exact ⟨rfl, rfl, rfl, fun _ => State.read_hostReset_prog hprog⟩
  case failure => rw [loadFits_iff]; omega
  case default =>
    have hnum : s.params.programStart.toNat = 512 := congrArg BitVec.toNat hstart
    rw [State.loadProgram_success_iff, loadFits_iff]
    omega

end Sys2Proof.Machine
end

/-! ### Data out of range (20_memory R77, 60_exceptions R243) -/

section
namespace Sys2Proof.Machine

/-- An access whose range is not empty and leaves memory writes the diagnostic and the pc, nothing else. -/
theorem State.checkRange_of_outOfRange {s : State} {n : Nat} (i : Instr) (done : State) (hn : 0 < n)
    (h : 4096 < s.idx.toNat + n) :
    s.checkRange i n done = { s with
      diag := some (.memOob (s.pc - 2#16) (encodeWord i) (max s.idx.toNat 0x1000))
      pc := if s.params.failPc = .hold then s.pc - 2#16 else s.pc } := by
  have hbad : rangeOk s.idx n = false := by
    rw [← Bool.not_eq_true, rangeOk_iff]
    omega
  rw [State.checkRange_oob hbad, State.raise_eq, State.failedPc_eq]
  rfl

/-- Settles O47: each of the four instructions is a range check, with N, 3 or X + 1 bytes at `I`. -/
theorem dataOutOfRangeChangesNothing : Obligations.DataOutOfRangeChangesNothing := by
  rintro i s (⟨x, y, n, rfl, hn, h⟩ | ⟨x, rfl, h⟩ | ⟨x, rfl | rfl, h⟩)
  · exact congrArg Host.Outcome.next (State.checkRange_of_outOfRange _ _ (by omega) (by omega))
  · exact congrArg Host.Outcome.next (State.checkRange_of_outOfRange _ _ (by decide) (by omega))
  all_goals
    have hlast : 4096 < s.idx.toNat + regCount x := by rw [regCount]; omega
    exact congrArg Host.Outcome.next (State.checkRange_of_outOfRange _ _ (Nat.succ_pos _) hlast)

end Sys2Proof.Machine
end

/-! ### The record of a diagnostic (60_exceptions R241, R242) -/

section
namespace Sys2Proof.Machine

@[simp] theorem State.skipIf_diag (s : State) (c : Bool) : (s.skipIf c).diag = s.diag := by
  rw [State.skipIf_eq, State.setPc_diag]

/-- From `s` to `t` the diagnostic output is kept, or is set to one that records the instruction `s` is executing and
the opcode `w`. -/
def ReportsOnly (w : Word) (s t : State) : Prop :=
  t.diag = s.diag ∨ ∃ d, t.diag = some d ∧ d.address = s.instrAddr ∧ d.opcode = some w

namespace ReportsOnly

variable {w : Word} {s t : State}

theorem checkRange (i : Instr) (n : Nat) (h : t.diag = s.diag) :
    ReportsOnly (encodeWord i) s (s.checkRange i n t) := by
  cases hr : rangeOk s.idx n
  · rw [State.checkRange_oob hr]; exact .inr ⟨_, rfl, rfl, rfl⟩
  · rw [State.checkRange_ok hr]; exact .inl h

theorem noteKey (i : Instr) (k : Byte) : ReportsOnly (encodeWord i) s (s.noteKey i k) := by
  unfold State.noteKey
  split
  · exact .inr ⟨_, rfl, rfl, rfl⟩
  · exact .inl rfl

theorem skipIf (h : ReportsOnly w s t) (c : Bool) : ReportsOnly w s (t.skipIf c) := by
  rwa [ReportsOnly, State.skipIf_diag]

end ReportsOnly

theorem exec_ret_reportsOnly (s : State) : ∃ t, exec .ret s = .next t ∧ ReportsOnly (encodeWord .ret) s t := by
  obtain h | ⟨k, h⟩ := Fin.eq_zero_or_eq_succ s.sp
  · exact ⟨_, exec_ret_of_empty (congrArg Fin.val h), .inr ⟨_, rfl, rfl, rfl⟩⟩
  · exact ⟨_, exec_ret_of_entry h, .inl rfl⟩

theorem exec_call_reportsOnly (nnn : Addr) (s : State) :
    ∃ t, exec (.call nnn) s = .next t ∧ ReportsOnly (encodeWord (.call nnn)) s t := by
  obtain ⟨k, h⟩ | h := Fin.eq_castSucc_or_eq_last s.sp
  · exact ⟨_, exec_call_of_room nnn h, .inl rfl⟩
  · exact ⟨_, exec_call_of_full nnn (congrArg Fin.val h), .inr ⟨_, rfl, rfl, rfl⟩⟩

theorem exec_ldKey_reportsOnly (x : RegIdx) (w : Word) (s : State) :
    ∃ t, exec (.ldKey x) s = .next t ∧ ReportsOnly w s t := by
  change ∃ t, execLdKey x s = .next t ∧ ReportsOnly w s t
  unfold execLdKey
  split <;> exact ⟨_, rfl, .inl rfl⟩

/-- Whatever opcode of `i` was fetched, it is the one a diagnostic of `i` records: only the shifts have opcodes other
than their encoding, and they report nothing. -/
theorem exec_reportsOnly {i : Instr} {w : Word} (hw : IsOpcodeOf i w) (s : State) :
    ∃ t, exec i s = .next t ∧ ReportsOnly w s t := by
  cases i with
  | ret => obtain rfl := hw; exact exec_ret_reportsOnly s
  | call nnn => obtain rfl := hw; exact exec_call_reportsOnly nnn s
  | ldKey x => exact exec_ldKey_reportsOnly x w s
  | drw | ldBcd | stRegs | ldRegs => obtain rfl := hw; exact ⟨_, rfl, .checkRange _ _ rfl⟩
  | skp | sknp => obtain rfl := hw; exact ⟨_, rfl, .skipIf (.noteKey _ _) _⟩
  | seImm | sneImm | seReg | sneReg => exact ⟨_, rfl, .inl (State.skipIf_diag _ _)⟩
  | _ => exact ⟨_, rfl, .inl rfl⟩

/-- Settles O16: a cycle starts with no diagnostic, so the one it ends with is of its fetch, its decode or its execute. -/
theorem diagnosticRecordsTheFetchedInstruction : Obligations.DiagnosticRecordsTheFetchedInstruction := by
  intro s t d ht hd
  obtain hpc | ⟨hpc, hnone⟩ | ⟨hpc, i, hi⟩ := fetch_cases s
  · cases (step_of_fetch_oob hpc).symm.trans ht
    cases hd
    exact ⟨s.instrAddr_beginCycle, (if_neg (by omega)).symm⟩
  · cases (step_of_unknown_opcode hpc hnone).symm.trans ht
    cases hd
    exact ⟨s.instrAddr_beginCycle, (if_pos hpc).symm⟩
  · obtain ⟨u, hu, hkept | ⟨e, he, haddr, hop⟩⟩ := exec_reportsOnly (isOpcodeOf_of_decodeOp hi) s.beginCycle
    all_goals cases (step_of_exec hpc hi hu).symm.trans ht
    · cases hkept.symm.trans hd
    · cases he.symm.trans hd
      exact ⟨haddr.trans s.instrAddr_beginCycle, hop.trans (if_pos hpc).symm⟩

end Sys2Proof.Machine
end
